-- ==== Sys2Proof/Word.lean ====
section
/-!
DEFINITION. The bit vectors of the block. Bit 0 is the least significant bit (spec/00_scope.md R11); a Boolean is a
1-bit value with true = 1, so every 1-bit register is a `Bool`.
-/

namespace Sys2Proof

/-- A command word `w` (spec/30_encoding.md R64). -/
abbrev CmdWord := BitVec 8

/-- A byte of a report, or a battery level as it leaves the block (R55, R80). -/
abbrev Byte := BitVec 8

/-- The raw button vector `raw[7:0]` (R70). -/
abbrev Raw := BitVec 8

/-- The HID button set `btn[11:0]` (R72). -/
abbrev Btn := BitVec 12

/-- The subscriber tag (spec/10_state.md R29). -/
abbrev Tag := BitVec 4

/-- A report packed as in R77. -/
abbrev PackedReport := BitVec 40

end Sys2Proof
end

