-- ==== Sys2Proof/Config.lean ====
section
/-!
DEFINITION. The parameters of the block (spec/00_scope.md R9, R10; spec/92_eei_decisions.md D4, D7, D8, D12, D28), the
sizes the report shape fixes (R10), and the one value that the spec's formulas leave without a result.
-/

namespace Sys2Proof

/-- How the hat reads three or four pressed directions (spec/41_mapper.md R97, D7). -/
inductive HatMulti where
  | firstMatch
  | exactSet
  deriving DecidableEq, Repr

/-- Which of Up and Down wins on the Y axis when both are pressed (spec/41_mapper.md R99, D8). -/
inductive YPriority where
  | down
  | up
  deriving DecidableEq, Repr

/-- The parameters a model takes as arguments. They are data of `State` (log 1), so a statement about every state is a
statement about every choice of them. -/
structure Params where
  /-- `IDLE_TIMEOUT`, ms. -/
  idleTimeout : Nat
  /-- `ADV_TIMEOUT`, ms. -/
  advTimeout : Nat
  /-- `BATT_PERIOD`, ms. -/
  battPeriod : Nat
  /-- `BLINK_HALF`, ms. -/
  blinkHalf : Nat
  /-- `T_LATCH`, µs. -/
  tLatch : Nat
  /-- `T_CLK`, µs. -/
  tClk : Nat
  /-- `TIME_W`, the width in bits of `now` and of the three timestamps. -/
  timeW : Nat
  /-- `HAT_MULTI`. -/
  hatMulti : HatMulti
  /-- `Y_PRIORITY`. -/
  yPriority : YPriority
  /-- `BLINK_PHASE` (spec/44_timers.md R130), 1 = true. -/
  blinkPhase : Bool
  deriving DecidableEq, Repr

/-- The defaults the spec gives: R9, and R97, R99, R130 for the three open choices. -/
def Params.default : Params where
  idleTimeout := 30000
  advTimeout := 30000
  battPeriod := 5000
  blinkHalf := 500
  tLatch := 12
  tClk := 6
  timeW := 32
  hatMulti := .firstMatch
  yPriority := .down
  blinkPhase := false

/-- `N_RAW` (R9): buttons in the raw vector, reads per POLL. -/
def nRaw : Nat := 8
/-- `N_BTN` (R9). -/
def nBtn : Nat := 12
/-- `REPORT_BYTES` (R9). -/
def reportBytes : Nat := 5
/-- `AXIS_MAX` (R9). -/
def axisMax : Int := 127
/-- `BATT_MAX` (R9). -/
def battMax : Int := 100
/-- `REPORT_ID` (R9, R79): carried beside the payload by the transport, never a sixth byte. -/
def reportId : Nat := 1

/-- DESIGN CHOICE (log 7), safe: the indicator level that `⌊now / BLINK_HALF⌋ mod 2` (R130) gives when `BLINK_HALF` is 0.
The spec states no result there, so nothing constrains this value. -/
opaque Config.blinkWithZeroHalf : Nat → Bool

end Sys2Proof
end

