-- ==== Sys2Proof/Syntax.lean ====
section
/-!
DEFINITION. The ten commands (spec/30_encoding.md R65, spec/opcode_table.json), the two fields of a command word (R64),
the two issuing agents (spec/10_state.md R38) and the two pseudo-commands (R83, R84).
-/

namespace Sys2Proof

/-- One constructor per row of spec/opcode_table.json. -/
inductive Instr where
  /-- `start()` (spec/42_fsm.md R104). -/
  | start
  /-- `stop()` (R105). -/
  | stop
  /-- `startAdvertising()` (R106). -/
  | advon
  /-- `stopAdvertising()` (R107). -/
  | advoff
  /-- Peer-connect event (R108). -/
  | conn
  /-- Peer-disconnect event (R109). -/
  | disc
  /-- One sampling pass with a guarded send (spec/43_report.md R120). -/
  | poll
  /-- `tick(now)` (spec/44_timers.md R124). -/
  | tick
  /-- `sendBattery` (R134). -/
  | batt
  /-- Register the state-change subscriber with tag `sid` (spec/42_fsm.md R110). -/
  | sub (sid : Tag)
  deriving DecidableEq, Repr

/-- The fields of the one format, `CMD8` (R64). -/
structure Cmd8 where
  /-- `w[3:0]`. -/
  op : BitVec 4
  /-- `w[7:4]`. -/
  arg : BitVec 4
  deriving DecidableEq, Repr

/-- The agents that issue commands (spec/10_state.md R38). -/
inductive Issuer where
  | pollLoop
  | transport
  deriving DecidableEq, Repr

/-- The pseudo-commands (R83, R84). -/
inductive Pseudo where
  | boot
  | iter
  deriving DecidableEq, Repr

end Sys2Proof
end

