-- ==== Sys2Proof/WellFormed.lean ====
section
/-!
DEFINITION. Which command words name a command (spec/30_encoding.md R67), and which parameters lie in the ranges the
spec gives them (spec/00_scope.md R9). Every `Instr` is well formed: SUB's tag is four bits by its type.
-/

namespace Sys2Proof

/-- Why a word is illegal, one name per case of R67. -/
inductive IllegalReason where
  /-- `op` is `0x0`. -/
  | opZero
  /-- `op` is in `0xB`..`0xF`. -/
  | opReserved
  /-- `op` is in `0x1`..`0x9` and `arg` is not 0. -/
  | argNotZero
  deriving DecidableEq, Repr

/-- The checks of R67: `none` for a legal word. -/
def Cmd8.illegal? (c : Cmd8) : Option IllegalReason :=
  if c.op = 0x0 then some .opZero
  else if 0xB ≤ c.op then some .opReserved
  else if c.op ≠ 0xA ∧ c.arg ≠ 0 then some .argNotZero
  else none

/-- The fields name a command. -/
def Cmd8.wellFormed (c : Cmd8) : Bool := c.illegal?.isNone

/-- The parameters lie in the ranges of R9 (`T_LATCH` at least 12, `T_CLK` at least 6), and the blink formula of
spec/44_timers.md R130 has a result. The block runs on other parameters too (log 7, log 11). -/
def Params.wellFormed (p : Params) : Bool :=
  decide (12 ≤ p.tLatch) && decide (6 ≤ p.tClk) && decide (0 < p.blinkHalf)

end Sys2Proof
end

