-- ==== Sys2Proof/Decode.lean ====
section
/-!
DEFINITION. The decoder, total over all 256 words (spec/30_encoding.md R66), and after it the encoder, written from the
same table (R64, R65). An illegal word is rejected by the name of its case in R67.
-/

namespace Sys2Proof

/-- The fields of a word (R64). -/
def Cmd8.ofWord (w : CmdWord) : Cmd8 where
  op := w.extractLsb' 0 4
  arg := w.extractLsb' 4 4

/-- The opcode map (R65), read on fields. -/
def Cmd8.toInstr (c : Cmd8) : Except IllegalReason Instr :=
  match c.illegal? with
  | some r => .error r
  | none =>
    match c.op with
    | 0x1#4 => .ok .start
    | 0x2#4 => .ok .stop
    | 0x3#4 => .ok .advon
    | 0x4#4 => .ok .advoff
    | 0x5#4 => .ok .conn
    | 0x6#4 => .ok .disc
    | 0x7#4 => .ok .poll
    | 0x8#4 => .ok .tick
    | 0x9#4 => .ok .batt
    | 0xA#4 => .ok (.sub c.arg)
    | 0x0#4 => .error .opZero
    | _ => .error .opReserved

/-- `Decode(w)` (R66). -/
def decode (w : CmdWord) : Except IllegalReason Instr := (Cmd8.ofWord w).toInstr

/-- The host's reading of a table word: the low `nbits` bits of `w`, every higher bit of the command word 0. -/
def decodeTableWord (nbits w : Nat) : Option Instr :=
  match decode (BitVec.ofNat 8 (w % 2 ^ nbits)) with
  | .ok i => some i
  | .error _ => none

/-- The opcode of a command (R65). -/
def Instr.opcode : Instr → BitVec 4
  | .start => 0x1
  | .stop => 0x2
  | .advon => 0x3
  | .advoff => 0x4
  | .conn => 0x5
  | .disc => 0x6
  | .poll => 0x7
  | .tick => 0x8
  | .batt => 0x9
  | .sub _ => 0xA

/-- The `arg` field of a command: the tag for SUB, `0b0000` for every other (R64). -/
def Instr.argField : Instr → BitVec 4
  | .sub sid => sid
  | .start | .stop | .advon | .advoff | .conn | .disc | .poll | .tick | .batt => 0

/-- The word of two fields: `arg ++ op` (R64). -/
def Cmd8.toWord (c : Cmd8) : CmdWord := c.arg ++ c.op

/-- The word of a command. -/
def encode (i : Instr) : CmdWord := Cmd8.toWord ⟨i.opcode, i.argField⟩

/-- The agent the source names for a command (R65). It does not change what the command does (log 15). -/
def Instr.issuer : Instr → Issuer
  | .conn | .disc => .transport
  | .start | .stop | .advon | .advoff | .poll | .tick | .batt | .sub _ => .pollLoop

/-- What a pseudo-command expands to (R83, R84). -/
def Pseudo.expand : Pseudo → List Instr
  | .boot => [.start, .advon]
  | .iter => [.poll, .tick]

end Sys2Proof
end

