-- ==== Sys2Proof/Machine/State.lean ====
section
/-!
DEFINITION. The state of the block: the registers S0 to S14 of spec/10_state.md R19, the output trace of R39, the
inputs of R35 to R38, and the parameters of spec/00_scope.md R9, as plain data; and its value after reset
(spec/70_reset_and_hazards.md R156).
-/

namespace Sys2Proof.Machine

/-- ConnectionState (spec/10_state.md R20), exactly one active at a time. -/
inductive ConnState where
  | stopped
  | idle
  | advertising
  | connected
  deriving DecidableEq, Repr

/-- The pins the block drives (R32). -/
inductive OutPin where
  | latch
  | clock
  deriving DecidableEq, Repr

/-- The pin the block reads (R37). -/
inductive InPin where
  | data
  deriving DecidableEq, Repr

/-- The 5-byte report `r[0..4]` (spec/30_encoding.md R75). -/
structure Report where
  r0 : Byte
  r1 : Byte
  r2 : Byte
  r3 : Byte
  r4 : Byte
  deriving DecidableEq, Repr

/-- The output events (spec/10_state.md R39). -/
inductive Event where
  /-- Drive pin `p` to level `v`. -/
  | pinWrite (p : OutPin) (v : Bool)
  /-- The line `p` was read and gave `v`. -/
  | pinRead (p : InPin) (v : Bool)
  /-- Busy-wait of at least `us` microseconds; the model gives it no duration (spec/40_sampler.md R90). -/
  | delay (us : Nat)
  /-- Ask the transport to start advertising. -/
  | advBegin
  /-- Ask the transport to stop advertising. -/
  | advStop
  /-- State-change notification: subscriber tag and state code (spec/30_encoding.md R81). -/
  | notify (id : Tag) (code : BitVec 2)
  /-- Send the 5 payload bytes (R79). -/
  | reportNotify (r : Report)
  /-- Send a battery level as one unsigned byte (R80). -/
  | batteryNotify (l : Byte)
  /-- Hand off to the power collaborator. -/
  | powerOff
  deriving DecidableEq, Repr

/-- The input values one command sees. -/
structure Inputs where
  /-- The time input in ms (R35); a command sees it modulo `2^TIME_W` (log 6). -/
  now : Nat
  /-- The draws of the data line: bit `i` is the level the command's `i`-th `ReadPin(DATA)` gives (R37, log 10). -/
  data : BitVec 8
  /-- The draw of `BattIn()`, an unbounded integer (R36). -/
  batt : Int
  deriving DecidableEq, Repr

/-- A command as it reaches the block: who issued it, its word, and the inputs it sees. -/
structure Arrival where
  issuer : Issuer
  word : CmdWord
  inputs : Inputs
  deriving DecidableEq, Repr

/-- The whole state. The first fifteen fields are the spec's registers, in the order of R19. -/
structure State where
  /-- S0. -/
  st : ConnState
  /-- S1, lastActivityTime. -/
  tAct : Nat
  /-- S2, advertisingStartTime. -/
  tAdv : Nat
  /-- S3, lastBatteryCheckTime. -/
  tBatt : Nat
  /-- S4, the battery level last pushed to the peer. -/
  battSent : Byte
  /-- S5, the last report sent, packed. -/
  rptCache : PackedReport
  /-- S6: `rptCache` holds a report sent on the current connection. -/
  rptValid : Bool
  /-- S7, the activity indicator. -/
  led : Bool
  /-- S8, re-advertise pending. -/
  readv : Bool
  /-- S9, a subscriber is registered. -/
  subValid : Bool
  /-- S10, its tag. -/
  subId : Tag
  /-- S11, powered off. -/
  halted : Bool
  /-- S12, an illegal command was seen. -/
  err : Bool
  /-- S13, the level on the latch line. -/
  pinLatch : Bool
  /-- S14, the level on the clock line. -/
  pinClock : Bool
  /-- The output trace of the current command, in order (R39, log 9). -/
  trace : List Event
  /-- The inputs of the current command. -/
  inputs : Inputs
  /-- The commands not yet taken, in the total order of spec/20_memory.md R58 (log 2). -/
  pending : List Arrival
  /-- The parameters, fixed for a run (log 1). -/
  params : Params
  deriving DecidableEq, Repr

/-- Why the machine stops. -/
inductive Fault where
  /-- Raised by every command and by `step` when `halted = 1`: no command and no event has a step
  (spec/60_exceptions.md R152). Safe: the spec gives the block no behaviour here (log 4). -/
  | poweredOff
  deriving DecidableEq, Repr

/-- Why an instruction is rejected. -/
inductive Refusal where
  /-- Raised by an arm of `exec` whose instruction has no meaning yet. No arm raises it. Safe. -/
  | notModelled (mnemonic : String)
  deriving DecidableEq, Repr

/-- Reset (spec/70_reset_and_hazards.md R156). The last four fields are the model's own (log 8): no event emitted, no
command arrived, the parameters at the spec's defaults. -/
def State.reset : State where
  st := .stopped
  tAct := 0
  tAdv := 0
  tBatt := 0
  battSent := 0xFF
  rptCache := 0
  rptValid := false
  led := false
  readv := false
  subValid := false
  subId := 0
  halted := false
  err := false
  pinLatch := false
  pinClock := false
  trace := []
  inputs := { now := 0, data := 0xFF, batt := 0 }
  pending := []
  params := Params.default

end Sys2Proof.Machine
end

