-- ==== Sys2Proof/Machine/Operands.lean ====
section
/-!
DEFINITION. The data formats of the block and the plain functions over them: bit fields and signed bytes
(spec/00_scope.md R11), the state code (spec/30_encoding.md R69), the hat code and the report layout (R73 to R79), the
battery clamp (spec/10_state.md R36) and elapsed time (spec/44_timers.md R125).
-/

namespace Sys2Proof.Machine

/-- `v[i] <- b`. -/
def setBit {n : Nat} (v : BitVec n) (i : Nat) (b : Bool) : BitVec n :=
  if b then v ||| (1#n <<< i) else v &&& ~~~(1#n <<< i)

/-- `s8(n)`: the 8-bit two's-complement pattern (R11; spec/20_memory.md R52). -/
def s8 (n : Int) : Byte := BitVec.ofInt 8 n

/-- `i8(b)`: a byte read as signed (R11). -/
def i8 (b : Byte) : Int := b.toInt

/-- `u8(b)`: a byte read as unsigned (R11). -/
def u8 (b : Byte) : Nat := b.toNat

/-- The 2-bit code of a connection state (spec/30_encoding.md R69, D3). -/
def ConnState.code : ConnState → BitVec 2
  | .stopped => 0b00
  | .idle => 0b01
  | .advertising => 0b10
  | .connected => 0b11

/-- The bytes in the order `ReportNotify` hands them over (spec/20_memory.md R49). -/
def Report.bytes (r : Report) : List Byte := [r.r0, r.r1, r.r2, r.r3, r.r4]

/-- `pack(r)`: byte `k` at bits `[8k+7:8k]` (spec/30_encoding.md R77). -/
def Report.pack (r : Report) : PackedReport := r.r4 ++ r.r3 ++ r.r2 ++ r.r1 ++ r.r0

/-- The direction of a hat code in degrees clockwise from up; none for centered and for codes that are never produced
(R73). -/
def hatDegrees (c : Nat) : Option Nat := if 1 ≤ c ∧ c ≤ 8 then some (45 * (c - 1)) else none

/-- `clamp(b) = min(max(b, 0), 100)` (spec/10_state.md R36). -/
def clampLevel (b : Int) : Nat := (min (max b 0) battMax).toNat

/-- `(a - b) mod 2^w` (spec/00_scope.md R11). -/
def subMod (w a b : Nat) : Nat := (((a : Int) - (b : Int)) % (2 ^ w : Int)).toNat

/-- One item of the report descriptor's layout (spec/30_encoding.md R78). -/
inductive LayoutItem where
  /-- Button usage `k`, 1 to 12. -/
  | button (k : Nat)
  | padding
  | hat
  | axisX
  | axisY
  deriving DecidableEq, Repr

/-- The layout the report must match, each item with its width in bits, from bit 0 of the packed report up (R78). -/
def descriptorLayout : List (LayoutItem × Nat) :=
  (List.range nBtn).map (fun k => (LayoutItem.button (k + 1), 1)) ++
    [(.padding, 4), (.hat, 4), (.padding, 4), (.axisX, 8), (.axisY, 8)]

/-- Each item of a layout with its lowest bit and its width, the first item at bit `start`. -/
def placeItems (start : Nat) : List (LayoutItem × Nat) → List (LayoutItem × Nat × Nat)
  | [] => []
  | (item, w) :: rest => (item, start, w) :: placeItems (start + w) rest

end Sys2Proof.Machine
end

