-- ==== Sys2Proof/Machine/Ops.lean ====
section
/-!
DEFINITION. The named operations every command is built from: the primitives of spec/00_scope.md R12, the one
state-writing procedure of the FSM (spec/42_fsm.md R102), the shared precondition `halted = 0`, and taking the one
exception (spec/60_exceptions.md R139). There is no return from an exception (R142).
-/

namespace Sys2Proof.Machine

/-- `now`, sampled once for the command, `TIME_W` bits (spec/10_state.md R35, log 6). -/
def State.now (s : State) : Nat := s.inputs.now % 2 ^ s.params.timeW

/-- `elapsed(t) = (now - t) mod 2^TIME_W` (spec/44_timers.md R125). -/
def State.elapsed (s : State) (t : Nat) : Nat := subMod s.params.timeW s.now t

/-- `emit E` (spec/00_scope.md R12). -/
def State.emit (e : Event) (s : State) : State := { s with trace := s.trace ++ [e] }

/-- Drive an output pin: its register and its event (spec/10_state.md R32, R39). -/
def State.drivePin (p : OutPin) (v : Bool) (s : State) : State :=
  match p with
  | .latch => ({ s with pinLatch := v }).emit (.pinWrite .latch v)
  | .clock => ({ s with pinClock := v }).emit (.pinWrite .clock v)

/-- The level the `i`-th `ReadPin(DATA)` of the command gives (spec/10_state.md R37). -/
def State.readPin (s : State) (i : Nat) : Bool := s.inputs.data.getLsbD i

/-- One battery sample, clamped (spec/10_state.md R36). -/
def State.battSample (s : State) : Nat := clampLevel s.inputs.batt

/-- Invoke the registered state-change notification, if there is one (spec/42_fsm.md R103). -/
def State.notifyState (c : ConnState) (s : State) : State :=
  if s.subValid then s.emit (.notify s.subId c.code) else s

/-- `SetState(c)`, the only writer of `st` (spec/42_fsm.md R102). -/
def State.setState (c : ConnState) (s : State) : State :=
  if c = s.st then s
  else
    let s := { s with st := c }
    let s := if c = .idle then { s with tAct := s.now } else s
    let s := if c = .advertising then { s with tAdv := s.now } else s
    let s := if c = .connected then { s with rptValid := false } else s
    let s := if c ≠ .idle then { s with readv := false } else s
    s.notifyState c

/-- `BatteryNotify(l)` and the update of the last level sent (spec/44_timers.md R131, R134). -/
def State.sendLevel (l : Nat) (s : State) : State :=
  { s.emit (.batteryNotify (BitVec.ofNat 8 l)) with battSent := BitVec.ofNat 8 l }

/-- The precondition every command shares: with `halted = 1` it has no step (spec/60_exceptions.md R152). -/
def State.running (s : State) (body : State → State) : Host.Outcome State Fault Refusal :=
  if s.halted then .fault .poweredOff else .next (body s)

/-- The exceptions of the block (spec/60_exceptions.md R138). -/
inductive Exn where
  | illegalCommand (w : CmdWord)
  deriving DecidableEq, Repr

/-- The cause code (R138). -/
def Exn.cause : Exn → Nat
  | .illegalCommand _ => 1

/-- Taking an exception: `err` is set, no other register changes, the word is not recorded, nothing is emitted (R139,
R141). -/
def State.raise (e : Exn) (s : State) : State :=
  match e with
  | .illegalCommand _ => { s with err := true }

end Sys2Proof.Machine
end

