-- ==== Sys2Proof/Machine/Flags.lean ====
section
/-!
DEFINITION. The block has no condition codes (spec/10_state.md R33). These are the conditions its commands test: the
guarded-send predicate, the change detector, the deadlines of TICK, and the blink.
-/

namespace Sys2Proof.Machine

/-- `Guard() = (st == Connected)` (spec/42_fsm.md R114). -/
def State.guardSend (s : State) : Bool := decide (s.st = .connected)

/-- `Changed(r)` (spec/43_report.md R118): over all 40 bits (R119). -/
def State.changed (s : State) (r : Report) : Bool := !s.rptValid || s.rptCache != r.pack

/-- A re-advertise is due (spec/44_timers.md R127). -/
def State.readvertiseDue (s : State) : Bool := s.readv && decide (s.st = .idle)

/-- The idle timeout has passed (R128): strictly more than `IDLE_TIMEOUT`. -/
def State.idleDue (s : State) : Bool :=
  decide (s.st = .idle) && decide (s.params.idleTimeout < s.elapsed s.tAct)

/-- The advertising timeout has passed (R129). -/
def State.advDue (s : State) : Bool := decide (s.params.advTimeout < s.elapsed s.tAdv)

/-- The battery deadline has passed (R131). -/
def State.battDue (s : State) : Bool := decide (s.params.battPeriod < s.elapsed s.tBatt)

/-- `Blink(now) = ⌊now / BLINK_HALF⌋ mod 2`, exclusive-or `BLINK_PHASE` (R130, D12). With `BLINK_HALF = 0` the quotient is
not defined and the level is a free value (log 7). -/
def State.blink (s : State) : Bool :=
  let level :=
    if s.params.blinkHalf = 0 then Config.blinkWithZeroHalf s.now
    else decide (s.now / s.params.blinkHalf % 2 = 1)
  level ^^ s.params.blinkPhase

end Sys2Proof.Machine
end

