-- ==== Sys2Proof/Machine/Fsm.lean ====
section
/-!
DEFINITION. The commands of the connection state machine: START, STOP, ADVON, ADVOFF, CONN, DISC and SUB
(spec/42_fsm.md R104 to R110).
-/

namespace Sys2Proof.Machine

/-- START (R104). -/
def execStart (s : State) : Host.Outcome State Fault Refusal :=
  s.running fun s => if s.st = .stopped then s.setState .idle else s

/-- STOP (R105): advertising is torn down first. -/
def execStop (s : State) : Host.Outcome State Fault Refusal :=
  s.running fun s =>
    let s := if s.st = .advertising then s.emit .advStop else s
    s.setState .stopped

/-- ADVON (R106): `AdvBegin` comes while the block is still Idle. -/
def execAdvon (s : State) : Host.Outcome State Fault Refusal :=
  s.running fun s => if s.st = .idle then (s.emit .advBegin).setState .advertising else s

/-- ADVOFF (R107): it does not write `led`. -/
def execAdvoff (s : State) : Host.Outcome State Fault Refusal :=
  s.running fun s => if s.st = .advertising then (s.emit .advStop).setState .idle else s

/-- CONN (R108): from any state, with no `AdvStop`. -/
def execConn (s : State) : Host.Outcome State Fault Refusal :=
  s.running fun s => s.setState .connected

/-- DISC (R109): from any state; the re-advertising itself is TICK's. -/
def execDisc (s : State) : Host.Outcome State Fault Refusal :=
  s.running fun s => { s.setState .idle with readv := true }

/-- SUB (R110): the last registration wins (R111). -/
def execSub (sid : Tag) (s : State) : Host.Outcome State Fault Refusal :=
  s.running fun s => { s with subValid := true, subId := sid }

end Sys2Proof.Machine
end

