-- ==== Sys2Proof/Machine/Mapper.lean ====
section
/-!
DEFINITION. The input mapper, the second stage of POLL: a function of the raw vector alone, under the two open choices
`HAT_MULTI` and `Y_PRIORITY` (spec/41_mapper.md R93 to R100).
-/

namespace Sys2Proof.Machine

/-- What `Map` gives (R93): a 12-bit button set, a hat code and two axis values. -/
structure Mapped where
  btn : Btn
  hat : Nat
  x : Int
  y : Int
  deriving DecidableEq, Repr

/-- Buttons (R94): A, B, Select, Start at HID bits 0, 1, 10, 11; every other bit off (R95). -/
def mapButtons (raw : Raw) : Btn :=
  let btn := setBit (0 : Btn) 0 (raw.getLsbD 0)
  let btn := setBit btn 1 (raw.getLsbD 1)
  let btn := setBit btn 10 (raw.getLsbD 2)
  setBit btn 11 (raw.getLsbD 3)

/-- Hat under the reading `first_match` (R96), first rule that matches. -/
def hatFirstMatch (u d l r : Bool) : Nat :=
  if u && r then 2
  else if r && d then 4
  else if d && l then 6
  else if l && u then 8
  else if u && !d && !l && !r then 1
  else if r && !u && !d && !l then 3
  else if d && !u && !l && !r then 5
  else if l && !u && !d && !r then 7
  else 0

/-- Hat under the reading `exact_set` (R97 (b), D7): every rule needs exactly its own buttons. -/
def hatExactSet (u d l r : Bool) : Nat :=
  if u && r && !d && !l then 2
  else if r && d && !u && !l then 4
  else if d && l && !u && !r then 6
  else if l && u && !d && !r then 8
  else if u && !d && !l && !r then 1
  else if r && !u && !d && !l then 3
  else if d && !u && !l && !r then 5
  else if l && !u && !d && !r then 7
  else 0

/-- Hat (R96, R97): `U = raw[4]`, `D = raw[5]`, `L = raw[6]`, `R = raw[7]`. -/
def mapHat (p : Params) (raw : Raw) : Nat :=
  let u := raw.getLsbD 4
  let d := raw.getLsbD 5
  let l := raw.getLsbD 6
  let r := raw.getLsbD 7
  match p.hatMulti with
  | .firstMatch => hatFirstMatch u d l r
  | .exactSet => hatExactSet u d l r

/-- X axis (R98): Right before Left. -/
def mapX (raw : Raw) : Int :=
  if raw.getLsbD 7 then axisMax else if raw.getLsbD 6 then -axisMax else 0

/-- Y axis (R99): Down before Up, or Up before Down under `Y_PRIORITY = up`. -/
def mapY (p : Params) (raw : Raw) : Int :=
  match p.yPriority with
  | .down => if raw.getLsbD 5 then axisMax else if raw.getLsbD 4 then -axisMax else 0
  | .up => if raw.getLsbD 4 then -axisMax else if raw.getLsbD 5 then axisMax else 0

/-- `Map(raw)` (R93). -/
def mapRaw (p : Params) (raw : Raw) : Mapped where
  btn := mapButtons raw
  hat := mapHat p raw
  x := mapX raw
  y := mapY p raw

end Sys2Proof.Machine
end

