-- ==== Sys2Proof/Machine/Sampler.lean ====
section
/-!
DEFINITION. The shift-register sampler, the first stage of POLL (spec/40_sampler.md R85 to R92).
-/

namespace Sys2Proof.Machine

/-- Read `i` of the bit loop: the line is read before its clock pulse, and recorded inverted at `raw[i]` (R87, R88). -/
def sampleBit (i : Nat) (raw : Raw) (s : State) : Raw × State :=
  let d := s.readPin i
  let s := s.emit (.pinRead .data d)
  let raw := setBit raw i (!d)
  let s := s.drivePin .clock true
  let s := s.emit (.delay s.params.tClk)
  let s := s.drivePin .clock false
  let s := s.emit (.delay s.params.tClk)
  (raw, s)

/-- `left` iterations of the bit loop, the first at index `i`. -/
def sampleBits : (left i : Nat) → Raw → State → Raw × State
  | 0, _, raw, s => (raw, s)
  | left + 1, i, raw, s =>
    let (raw, s) := sampleBit i raw s
    sampleBits left (i + 1) raw s

/-- `Sample()` (R85): the latch pulse, then eight reads in increasing order. -/
def sample (s : State) : Raw × State :=
  let s := s.drivePin .latch true
  let s := s.emit (.delay s.params.tLatch)
  let s := s.drivePin .latch false
  sampleBits nRaw 0 0 s

end Sys2Proof.Machine
end

