-- ==== Sys2Proof/Machine/Report.lean ====
section
/-!
DEFINITION. The fixed-format packer, a reader of reports, and POLL (spec/43_report.md R116 to R123).
-/

namespace Sys2Proof.Machine

/-- `Encode(btn, hat, x, y)` (R116; layout spec/30_encoding.md R75). -/
def encodeReport (btn : Btn) (hat : Nat) (x y : Int) : Report where
  r0 := btn.extractLsb' 0 8
  r1 := (btn.extractLsb' 8 4).setWidth 8
  r2 := (BitVec.ofNat 4 hat).setWidth 8
  r3 := s8 x
  r4 := s8 y

/-- The domain of `Encode` (spec/00_scope.md R13; R117 (b)). -/
def encodable (hat : Nat) (x y : Int) : Bool :=
  decide (hat ≤ 8) && decide (-axisMax ≤ x) && decide (x ≤ axisMax) && decide (-axisMax ≤ y) && decide (y ≤ axisMax)

/-- `Encode` exposed on its own: it refuses what lies outside its domain (R117 (b), D26, log 12). -/
def encodeReport? (btn : Btn) (hat : Nat) (x y : Int) : Option Report :=
  if encodable hat x y then some (encodeReport btn hat x y) else none

/-- The report of a mapped input. -/
def encodeMapped (m : Mapped) : Report := encodeReport m.btn m.hat m.x m.y

/-- The report one raw vector gives. -/
def reportOf (p : Params) (raw : Raw) : Report := encodeMapped (mapRaw p raw)

/-- Reading a report back. Padding that is not zero, a hat code above 8 or an axis of -128 is no report this block can
have sent, and is refused (spec/30_encoding.md R76, spec/93_implementation_defined.md I5, log 12). -/
def decodeReport? (r : Report) : Option Mapped :=
  let hat := (r.r2.extractLsb' 0 4).toNat
  if r.r1.extractLsb' 4 4 = 0 ∧ r.r2.extractLsb' 4 4 = 0 ∧ encodable hat (i8 r.r3) (i8 r.r4) then
    some { btn := r.r1.extractLsb' 0 4 ++ r.r0, hat := hat, x := i8 r.r3, y := i8 r.r4 }
  else none

/-- The value a mapped input gives to an item of the descriptor's layout (spec/30_encoding.md R72, R74, R76, R78). -/
def Mapped.itemValue (m : Mapped) : LayoutItem → Nat
  | .button k => (m.btn.getLsbD (k - 1)).toNat
  | .padding => 0
  | .hat => m.hat
  | .axisX => u8 (s8 m.x)
  | .axisY => u8 (s8 m.y)

/-- Sending a report: the event, the cache, and the activity time (R120). -/
def State.sendReport (r : Report) (s : State) : State :=
  { s.emit (.reportNotify r) with rptCache := r.pack, rptValid := true, tAct := s.now }

/-- POLL (R120). -/
def execPoll (s : State) : Host.Outcome State Fault Refusal :=
  s.running fun s =>
    let (raw, s) := sample s
    let r := reportOf s.params raw
    if s.guardSend ∧ s.changed r then s.sendReport r else s

end Sys2Proof.Machine
end

