-- ==== Sys2Proof/Machine/Timers.lean ====
section
/-!
DEFINITION. TICK, in the order re-advertise, idle, advertising, battery, and BATT (spec/44_timers.md R124 to R136).
-/

namespace Sys2Proof.Machine

/-- Check (1), re-advertise after a disconnect (R127). -/
def tickReadvertise (s : State) : State :=
  if s.readvertiseDue then (s.emit .advBegin).setState .advertising else s

/-- The idle power-off (R128): the transition to Stopped, the hand-off, the end of the block. -/
def powerOff (s : State) : State := { (s.setState .stopped).emit .powerOff with halted := true }

/-- Check (3), advertising timeout, else blink (R129, R130). -/
def tickAdvertising (s : State) : State :=
  if s.st = .advertising then
    if s.advDue then { (s.emit .advStop).setState .idle with led := false }
    else { s with led := s.blink }
  else s

/-- Check (4), battery cadence (R131): the deadline in every state, the send only when Connected and on a new level. -/
def tickBattery (s : State) : State :=
  if s.battDue then
    let s := { s with tBatt := s.now }
    let l := s.battSample
    if s.guardSend ∧ l ≠ u8 s.battSent then s.sendLevel l else s
  else s

/-- TICK (R124): after a power-off, checks (3) and (4) do not run. -/
def execTick (s : State) : Host.Outcome State Fault Refusal :=
  s.running fun s =>
    let s := tickReadvertise s
    if s.idleDue then powerOff s else tickBattery (tickAdvertising s)

/-- BATT (R134): no change test, and `t_batt` is not touched. -/
def execBatt (s : State) : Host.Outcome State Fault Refusal :=
  s.running fun s => if s.guardSend then s.sendLevel s.battSample else s

end Sys2Proof.Machine
end

