-- ==== Sys2Proof/Machine/Dispatch.lean ====
section
/-! DEFINITION. One arm per command of spec/opcode_table.json, in the table's order. -/

namespace Sys2Proof.Machine

def exec (i : Instr) (s : State) : Host.Outcome State Fault Refusal :=
  match i with
  | .start => Sys2Proof.Machine.execStart s
  | .stop => Sys2Proof.Machine.execStop s
  | .advon => Sys2Proof.Machine.execAdvon s
  | .advoff => Sys2Proof.Machine.execAdvoff s
  | .conn => Sys2Proof.Machine.execConn s
  | .disc => Sys2Proof.Machine.execDisc s
  | .poll => Sys2Proof.Machine.execPoll s
  | .tick => Sys2Proof.Machine.execTick s
  | .batt => Sys2Proof.Machine.execBatt s
  | .sub sid => Sys2Proof.Machine.execSub sid s

end Sys2Proof.Machine
end

