-- ==== Sys2Proof/Machine/Fetch.lean ====
section
/-!
DEFINITION. How a command reaches the block (spec/10_state.md R38, spec/20_memory.md R45, R47, R58; log 2, log 9).
Nothing is fetched from a memory: the next command is the first of `pending`.
-/

namespace Sys2Proof.Machine

/-- The block takes command `a`: its inputs are sampled once (R47), its trace starts empty (R39), and `rest` stays to
come. -/
def State.accept (a : Arrival) (rest : List Arrival) (s : State) : State :=
  { s with trace := [], inputs := a.inputs, pending := rest }

/-- The next command, if one has arrived, and the state in which it runs. -/
def State.fetch (s : State) : Option (Arrival × State) :=
  match s.pending with
  | [] => none
  | a :: rest => some (a, s.accept a rest)

/-- A command whose word is the low `nbits` bits of `w`, with the inputs the block sees now. -/
def State.arrivalOfWord (s : State) (nbits w : Nat) : Arrival where
  issuer := .pollLoop
  word := BitVec.ofNat 8 (w % 2 ^ nbits)
  inputs := s.inputs

/-- An illegal word: the exception (spec/60_exceptions.md R138, R139). -/
def State.illegalWord (w : CmdWord) (s : State) : State := s.raise (.illegalCommand w)

end Sys2Proof.Machine
end

