-- ==== Sys2Proof/Machine/Step.lean ====
section
/-!
DEFINITION. One step of the block: it takes the next command and runs it whole (spec/20_memory.md R47). A powered-off
block has no step (spec/60_exceptions.md R152); a block to which no command has come waits (log 3).
-/

namespace Sys2Proof.Machine

def step (s : State) : Host.Outcome State Fault Refusal :=
  if s.halted then .fault .poweredOff
  else
    match s.fetch with
    | none => .next s
    | some (a, s') =>
      match decode a.word with
      | .ok i => exec i s'
      | .error _ => .next (s'.illegalWord a.word)

/-- The table word `w`, issued as the next command (log 2). -/
def State.withFetchWord (s : State) (nbits w : Nat) : State :=
  { s with pending := s.arrivalOfWord nbits w :: s.pending }

end Sys2Proof.Machine
end

