-- ==== Sys2Proof/Machine/Assembler.lean ====
section
/-!
DEFINITION. The text form of programs (spec/30_encoding.md R82 to R84): one command per line, `;` starts a comment, the
prefix `T:` marks a line of the transport agent, BOOT and ITER expand to two words. Lines are lists of characters.
What R82 leaves open (spaces, digits) is log 14.
-/

namespace Sys2Proof.Machine

/-- What one line says. -/
inductive LineItem where
  | command (i : Instr)
  | pseudo (p : Pseudo)
  deriving DecidableEq, Repr

/-- The mnemonic of a command as text (R65). -/
def mnemonicText : Instr → List Char
  | .start => ['S', 'T', 'A', 'R', 'T']
  | .stop => ['S', 'T', 'O', 'P']
  | .advon => ['A', 'D', 'V', 'O', 'N']
  | .advoff => ['A', 'D', 'V', 'O', 'F', 'F']
  | .conn => ['C', 'O', 'N', 'N']
  | .disc => ['D', 'I', 'S', 'C']
  | .poll => ['P', 'O', 'L', 'L']
  | .tick => ['T', 'I', 'C', 'K']
  | .batt => ['B', 'A', 'T', 'T']
  | .sub _ => ['S', 'U', 'B']

/-- The mnemonic of a pseudo-command as text (R83, R84). -/
def pseudoText : Pseudo → List Char
  | .boot => ['B', 'O', 'O', 'T']
  | .iter => ['I', 'T', 'E', 'R']

/-- The digits 0 to F. -/
def digitChars : List Char :=
  ['0', '1', '2', '3', '4', '5', '6', '7', '8', '9', 'A', 'B', 'C', 'D', 'E', 'F']

/-- A tag in decimal, 0 to 15 (R82). -/
def tagDecimal (t : Tag) : List Char :=
  if t.toNat < 10 then [digitChars.getD t.toNat '0'] else ['1', digitChars.getD (t.toNat - 10) '0']

/-- A tag in hexadecimal, `0x0` to `0xF` (R82). -/
def tagHex (t : Tag) : List Char := ['0', 'x', digitChars.getD t.toNat '0']

/-- The sixteen tags. -/
def allTags : List Tag := (List.range 16).map (BitVec.ofNat 4)

/-- Reading a tag. -/
def parseTag (cs : List Char) : Option Tag := allTags.find? fun t => cs == tagDecimal t || cs == tagHex t

/-- The text before the comment. -/
def stripComment (cs : List Char) : List Char := cs.takeWhile (· != ';')

/-- Cut a text at its spaces and tabs; `acc` is the token begun, last character first. -/
def tokensFrom (acc : List Char) : List Char → List (List Char)
  | [] => if acc.isEmpty then [] else [acc.reverse]
  | c :: cs =>
    if c == ' ' || c == '\t' then
      if acc.isEmpty then tokensFrom [] cs else acc.reverse :: tokensFrom [] cs
    else tokensFrom (c :: acc) cs

/-- The commands without an operand. -/
def plainInstrs : List Instr := [.start, .stop, .advon, .advoff, .conn, .disc, .poll, .tick, .batt]

/-- Reading the tokens of a line after its agent: SUB takes one operand, no other command takes one (R82). -/
def parseItem : List (List Char) → Option LineItem
  | [m] =>
    match plainInstrs.find? fun i => m == mnemonicText i with
    | some i => some (.command i)
    | none => ([Pseudo.boot, Pseudo.iter].find? fun p => m == pseudoText p).map .pseudo
  | [m, t] => if m == mnemonicText (.sub 0) then (parseTag t).map fun sid => .command (.sub sid) else none
  | _ => none

/-- Reading a line; the outer `none` is an error, the inner one a line that holds no command. -/
def parseLine (cs : List Char) : Option (Option (Issuer × LineItem)) :=
  match tokensFrom [] (stripComment cs) with
  | [] => some none
  | t :: ts =>
    if t == ['T', ':'] then (parseItem ts).map fun x => some (.transport, x)
    else (parseItem (t :: ts)).map fun x => some (.pollLoop, x)

/-- The commands a line stands for. -/
def LineItem.instrs : LineItem → List Instr
  | .command i => [i]
  | .pseudo p => p.expand

/-- The words of a line. -/
def LineItem.words (x : LineItem) : List CmdWord := x.instrs.map encode

/-- Assembling a program, run top to bottom: each word with the agent that issues it. -/
def assemble : List (List Char) → Option (List (Issuer × CmdWord))
  | [] => some []
  | l :: ls =>
    match parseLine l, assemble ls with
    | some none, some rest => some rest
    | some (some (agent, x)), some rest => some (x.words.map (fun w => (agent, w)) ++ rest)
    | _, _ => none

/-- Writing a command as a line of its agent (R82). -/
def renderInstr (agent : Issuer) (i : Instr) : List Char :=
  let body :=
    match i with
    | .sub sid => mnemonicText i ++ ' ' :: tagDecimal sid
    | .start | .stop | .advon | .advoff | .conn | .disc | .poll | .tick | .batt => mnemonicText i
  match agent with
  | .pollLoop => body
  | .transport => ['T', ':', ' '] ++ body

end Sys2Proof.Machine
end

