-- ==== Sys2Proof/Machine/Registers.lean ====
section
/-!
DEFINITION. The register table of spec/10_state.md R19 as a view of the state: number, width, value. The numbers are
labels only; no command addresses a register (R18).
-/

namespace Sys2Proof.Machine

/-- The registers S0 to S14. -/
inductive RegName where
  | st | tAct | tAdv | tBatt | battSent | rptCache | rptValid | led | readv | subValid | subId | halted | err
  | pinLatch | pinClock
  deriving DecidableEq, Repr

/-- The registers in the order of R19. -/
def RegName.all : List RegName :=
  [.st, .tAct, .tAdv, .tBatt, .battSent, .rptCache, .rptValid, .led, .readv, .subValid, .subId, .halted, .err,
    .pinLatch, .pinClock]

/-- The `#` column. -/
def RegName.number : RegName → Nat
  | .st => 0 | .tAct => 1 | .tAdv => 2 | .tBatt => 3 | .battSent => 4 | .rptCache => 5 | .rptValid => 6 | .led => 7
  | .readv => 8 | .subValid => 9 | .subId => 10 | .halted => 11 | .err => 12 | .pinLatch => 13 | .pinClock => 14

/-- The `width` column; the timestamps are `TIME_W` bits wide. -/
def RegName.width (p : Params) : RegName → Nat
  | .st => 2
  | .tAct | .tAdv | .tBatt => p.timeW
  | .battSent => 8
  | .rptCache => 40
  | .subId => 4
  | .rptValid | .led | .readv | .subValid | .halted | .err | .pinLatch | .pinClock => 1

/-- A register's value as an unsigned number. -/
def State.read (s : State) : RegName → Nat
  | .st => s.st.code.toNat
  | .tAct => s.tAct
  | .tAdv => s.tAdv
  | .tBatt => s.tBatt
  | .battSent => s.battSent.toNat
  | .rptCache => s.rptCache.toNat
  | .rptValid => s.rptValid.toNat
  | .led => s.led.toNat
  | .readv => s.readv.toNat
  | .subValid => s.subValid.toNat
  | .subId => s.subId.toNat
  | .halted => s.halted.toNat
  | .err => s.err.toNat
  | .pinLatch => s.pinLatch.toNat
  | .pinClock => s.pinClock.toNat

end Sys2Proof.Machine
end

