-- ==== Sys2Proof/Safety.lean ====
section
/-!
DEFINITION. What a state must satisfy (spec/10_state.md R42), what a model observes (R43), what a command may change,
and the launch premise on time (spec/70_reset_and_hazards.md R166).
-/

namespace Sys2Proof.Machine

/-- The invariants of R42. (a), that `st` is one of the four states, holds by the type of `st`; the last three fields say
that the timestamps fit their width (R19). -/
structure BlockInv (s : State) : Prop where
  /-- R42 (b). -/
  battLevel : s.battSent.toNat ≤ 100 ∨ s.battSent = 0xFF
  /-- R42 (c): the cache holds the report of some raw vector. -/
  cacheProducible : s.rptValid = true → ∃ raw, s.rptCache = (reportOf s.params raw).pack
  /-- R42 (d). -/
  readvIdle : s.readv = true → s.st = .idle
  /-- R42 (e). -/
  haltedStopped : s.halted = true → s.st = .stopped
  /-- R42 (f). -/
  latchLow : s.pinLatch = false
  /-- R42 (f). -/
  clockLow : s.pinClock = false
  tActWidth : s.tAct < 2 ^ s.params.timeW
  tAdvWidth : s.tAdv < 2 ^ s.params.timeW
  tBattWidth : s.tBatt < 2 ^ s.params.timeW

/-- Two states that a model cannot tell apart: the same registers and the same trace (R43). -/
def SameObserved (s t : State) : Prop := (∀ r, s.read r = t.read r) ∧ s.trace = t.trace

/-- The frame of a command that may write the registers in `rs`: every other register, the inputs, the commands to come
and the parameters are unchanged, and the trace only grows by `evs`. -/
def ChangesOnly (rs : List RegName) (evs : List Event) (s t : State) : Prop :=
  (∀ r, r ∉ rs → t.read r = s.read r) ∧ t.trace = s.trace ++ evs ∧ t.inputs = s.inputs ∧ t.pending = s.pending ∧
    t.params = s.params

/-- `SAMPLE(d0..d7)`: the sampler's events for the data line levels `data`, in read order (spec/40_sampler.md R85;
spec/95_test_vectors.md section 3). -/
def samplerEvents (p : Params) (data : BitVec 8) : List Event :=
  [.pinWrite .latch true, .delay p.tLatch, .pinWrite .latch false] ++
    (List.range nRaw).flatMap fun i =>
      [.pinRead .data (data.getLsbD i), .pinWrite .clock true, .delay p.tClk, .pinWrite .clock false, .delay p.tClk]

/-- The `Notify` a state change emits: one to the registered subscriber, none without one (spec/42_fsm.md R103). -/
def notifyEvents (s : State) (code : BitVec 2) : List Event := if s.subValid then [.notify s.subId code] else []

/-- The event is a state-change notification. -/
def isNotify : Event → Bool
  | .notify _ _ => true
  | _ => false

/-- The event is a call that begins or stops advertising (spec/60_exceptions.md R148). -/
def isAdvCall : Event → Bool
  | .advBegin | .advStop => true
  | _ => false

/-- The event is a battery notification. -/
def isBatteryNotify : Event → Bool
  | .batteryNotify _ => true
  | _ => false

/-- The collaborators at the block's edge (spec/60_exceptions.md R148). -/
inductive Collaborator where
  | transport
  | digitalIO
  | power
  /-- The registered state-change subscriber, whose receiver runs outside the block (R142). -/
  | subscriber
  deriving DecidableEq, Repr

/-- Which collaborator an event is a call of (R148). -/
def collaboratorOf : Event → Collaborator
  | .pinWrite _ _ | .pinRead _ _ | .delay _ => .digitalIO
  | .advBegin | .advStop | .reportNotify _ | .batteryNotify _ => .transport
  | .notify _ _ => .subscriber
  | .powerOff => .power

/-- The events a command added to the trace. -/
def newEvents (s t : State) : List Event := t.trace.drop s.trace.length

/-- An outcome with its next state changed. -/
def mapNext (f : State → State) : Host.Outcome State Fault Refusal → Host.Outcome State Fault Refusal
  | .next s => .next (f s)
  | .fault r => .fault r
  | .refused r => .refused r

/-- The registers a command may write (the "written by" column of spec/10_state.md R19, and the command rules). -/
def writes : Instr → List RegName
  | .start | .advoff => [.st, .tAct]
  | .stop => [.st, .readv]
  | .advon => [.st, .tAdv, .readv]
  | .conn => [.st, .rptValid, .readv]
  | .disc => [.st, .tAct, .readv]
  | .poll => [.pinLatch, .pinClock, .rptCache, .rptValid, .tAct]
  | .tick => [.st, .tAct, .tAdv, .readv, .halted, .led, .tBatt, .battSent]
  | .batt => [.battSent]
  | .sub _ => [.subValid, .subId]

/-- The launch premise of R166: time does not go back from one command to the next. `now` is the unbounded count whose
low `TIME_W` bits a command sees (log 6), so this is "non-decreasing modulo `2^TIME_W`". -/
def MonotonicTime (s : State) : Prop :=
  (s.inputs.now :: s.pending.map fun a => a.inputs.now).Pairwise (· ≤ ·)

end Sys2Proof.Machine
end

