-- ==== Sys2Proof/Certificates/Slice0/Obligations.lean ====
section
/-!
DEFINITION. The statements for the provers. A statement about every state is a statement about every value of the
parameters of spec/00_scope.md R9, which are data of the state (log 1), and about every draw (log 2, log 10).
-/

open Sys2Proof Sys2Proof.Machine

/-! ### Encoding -/

/-- Words written out from R64 and R65, with illegal ones of each case of R67 (spec/95_test_vectors.md section 2). That an
illegal word is an error is the spec's; the NAMES of the errors (`opZero`, `opReserved`, `argNotZero`) are the MODEL'S
CHOICE (log 5), because the spec's `Illegal(w)` names no case. -/
def Obligations.DecodeWrittenWords : Prop :=
  decode 0b00000001 = .ok .start ∧ decode 0b00000010 = .ok .stop ∧ decode 0b00000011 = .ok .advon ∧
  decode 0b00000100 = .ok .advoff ∧ decode 0b00000101 = .ok .conn ∧ decode 0b00000110 = .ok .disc ∧
  decode 0b00000111 = .ok .poll ∧ decode 0b00001000 = .ok .tick ∧ decode 0b00001001 = .ok .batt ∧
  decode 0b00111010 = .ok (.sub 3) ∧ decode 0b11111010 = .ok (.sub 15) ∧
  decode 0b00000000 = .error .opZero ∧ decode 0b00001011 = .error .opReserved ∧
  decode 0b11111111 = .error .opReserved ∧ decode 0b00010001 = .error .argNotZero

/-- R66: the decoder over all words, and the counts it gives. -/
def Obligations.DecodeFollowsOpcodeMap : Prop :=
  (∀ w : CmdWord,
    let op := w.extractLsb' 0 4
    let arg := w.extractLsb' 4 4
    (op = 0xA → decode w = .ok (.sub arg)) ∧
    (arg = 0 →
      (op = 0x1 → decode w = .ok .start) ∧ (op = 0x2 → decode w = .ok .stop) ∧ (op = 0x3 → decode w = .ok .advon) ∧
      (op = 0x4 → decode w = .ok .advoff) ∧ (op = 0x5 → decode w = .ok .conn) ∧ (op = 0x6 → decode w = .ok .disc) ∧
      (op = 0x7 → decode w = .ok .poll) ∧ (op = 0x8 → decode w = .ok .tick) ∧ (op = 0x9 → decode w = .ok .batt)) ∧
    (op ≠ 0xA → ¬(1 ≤ op.toNat ∧ op.toNat ≤ 9 ∧ arg = 0) → ∃ r, decode w = .error r)) ∧
  ((List.range 256).filter fun n => (decodeTableWord 8 n).isSome).length = 25 ∧
  ((List.range 256).filter fun n => (decodeTableWord 8 n).isNone).length = 231

/-- Decode and encode agree on every command and on every legal word, and two commands never share a word. -/
def Obligations.DecodeEncodeAgree : Prop :=
  (∀ i : Instr, decode (encode i) = .ok i) ∧
  (∀ (w : CmdWord) (i : Instr), decode w = .ok i → encode i = w) ∧
  (∀ i j : Instr, encode i = encode j → i = j)

/-- R83, R84: what the pseudo-commands expand to, and their words. -/
def Obligations.PseudoCommandsExpand : Prop :=
  Pseudo.boot.expand = [.start, .advon] ∧ Pseudo.boot.expand.map encode = [0x01, 0x03] ∧
  Pseudo.iter.expand = [.poll, .tick] ∧ Pseudo.iter.expand.map encode = [0x07, 0x08]

/-- Text form (R82): a command written as a line of either agent reads back as that command of that agent. -/
def Obligations.RenderedLineParsesBack : Prop :=
  ∀ (agent : Issuer) (i : Instr), parseLine (renderInstr agent i) = some (some (agent, .command i))

/-! ### The step -/

/-- A step runs the decoded command, on the state with the command's inputs, an empty trace and the command taken off
the list; the outcome of the step is the outcome of the command. The list and the clearing of the trace are the model's
form of R38, R39 and R47 (log 2, log 9). -/
def Obligations.StepRunsDecodedCommand : Prop :=
  ∀ (s : State) (a : Arrival) (rest : List Arrival) (i : Instr),
    s.pending = a :: rest → decode a.word = .ok i →
      step s = exec i { s with trace := [], inputs := a.inputs, pending := rest }

/-- R67, R138, R139: an illegal word sets `err` and changes no other register, with an empty trace; `err` is sticky. -/
def Obligations.IllegalWordSetsErr : Prop :=
  (∀ (s : State) (a : Arrival) (rest : List Arrival),
    s.halted = false → s.pending = a :: rest →
    (a.word.extractLsb' 0 4 = 0 ∨ 0xB ≤ (a.word.extractLsb' 0 4).toNat ∨
      (a.word.extractLsb' 0 4 ≠ 0xA ∧ a.word.extractLsb' 4 4 ≠ 0)) →
      step s = .next { s with err := true, trace := [], inputs := a.inputs, pending := rest }) ∧
  (∀ s t : State, step s = .next t → s.err = true → t.err = true)

/-- MODEL'S CHOICE (log 3, resting on "After reset it waits for its first command", R158): with no command to take, the
state stays as it is. -/
def Obligations.StepWaitsWithoutCommand : Prop :=
  ∀ s : State, s.halted = false → s.pending = [] → step s = .next s

/-- R152: with `halted = 1` no command, no event and no illegal word has a step. The fault `poweredOff` is the model's form
of "no step" (log 4). -/
def Obligations.PoweredOffHasNoStep : Prop :=
  ∀ s : State, s.halted = true → step s = .fault .poweredOff ∧ ∀ i : Instr, exec i s = .fault .poweredOff

/-- R137: every command completes for every input and every state of a running block. So does every step: with a command
pending, by R137 or R139, and the command is taken off the list (the list is the model's form, log 2); with none pending
the step is the MODEL'S CHOICE (log 3), because the spec has no step without a command. -/
def Obligations.RunningBlockAlwaysSteps : Prop :=
  ∀ s : State, s.halted = false →
    (∀ i : Instr, ∃ t, exec i s = .next t ∧ t.params = s.params ∧ t.inputs = s.inputs ∧ t.pending = s.pending) ∧
    ∃ t, step s = .next t ∧ t.params = s.params ∧ t.pending = s.pending.tail

/-- R146: who issues a command makes no difference. -/
def Obligations.IssuerMakesNoDifference : Prop :=
  ∀ (s : State) (a : Arrival) (rest : List Arrival) (x : Issuer),
    step { s with pending := { a with issuer := x } :: rest } = step { s with pending := a :: rest }

/-- R42 and the widths of R19, kept by every step. -/
def Obligations.StepKeepsInvariants : Prop :=
  ∀ s t : State, BlockInv s → step s = .next t → BlockInv t

/-- The invariants of R42 hold after reset, whatever commands come and whatever the parameters. -/
def Obligations.ResetSatisfiesInvariants : Prop :=
  ∀ (pending : List Arrival) (inputs : Inputs) (params : Params),
    BlockInv { State.reset with pending := pending, inputs := inputs, params := params }

/-- R156: the registers after reset, and no event emitted. -/
def Obligations.ResetValues : Prop :=
  let s := State.reset
  s.st = .stopped ∧ s.tAct = 0 ∧ s.tAdv = 0 ∧ s.tBatt = 0 ∧ s.battSent = 0xFF ∧ s.rptCache = 0 ∧ s.rptValid = false ∧
  s.led = false ∧ s.readv = false ∧ s.subValid = false ∧ s.subId = 0 ∧ s.halted = false ∧ s.err = false ∧
  s.pinLatch = false ∧ s.pinClock = false ∧ s.trace = []

/-- R166: the launch premise on time is kept by every step. -/
def Obligations.StepKeepsMonotonicTime : Prop :=
  ∀ s t : State, MonotonicTime s → step s = .next t → MonotonicTime t

/-! ### The connection state machine -/

/-- R104. -/
def Obligations.StartResult : Prop :=
  ∀ s : State, s.halted = false →
    exec .start s =
      .next (if s.st = .stopped then
        { s with st := .idle, tAct := s.now, trace := s.trace ++ notifyEvents s 0b01 } else s)

/-- R105. -/
def Obligations.StopResult : Prop :=
  ∀ s : State, s.halted = false →
    (s.st = .stopped → exec .stop s = .next s) ∧
    (s.st = .advertising →
      exec .stop s = .next
        { s with st := .stopped, readv := false, trace := s.trace ++ [.advStop] ++ notifyEvents s 0b00 }) ∧
    (s.st = .idle ∨ s.st = .connected →
      exec .stop s = .next { s with st := .stopped, readv := false, trace := s.trace ++ notifyEvents s 0b00 })

/-- R106. -/
def Obligations.AdvonResult : Prop :=
  ∀ s : State, s.halted = false →
    exec .advon s =
      .next (if s.st = .idle then
        { s with
          st := .advertising
          tAdv := s.now
          readv := false
          trace := s.trace ++ [.advBegin] ++ notifyEvents s 0b10 }
      else s)

/-- R107: `led` keeps its value. -/
def Obligations.AdvoffResult : Prop :=
  ∀ s : State, s.halted = false →
    exec .advoff s =
      .next (if s.st = .advertising then
        { s with st := .idle, tAct := s.now, trace := s.trace ++ [.advStop] ++ notifyEvents s 0b01 } else s)

/-- R108: from any state; from Connected nothing changes, `rpt_valid` among it. -/
def Obligations.ConnResult : Prop :=
  ∀ s : State, s.halted = false →
    exec .conn s =
      .next (if s.st = .connected then s else
        { s with st := .connected, rptValid := false, readv := false, trace := s.trace ++ notifyEvents s 0b11 })

/-- R109: from any state; from Idle only `readv` is set. -/
def Obligations.DiscResult : Prop :=
  ∀ s : State, s.halted = false →
    exec .disc s =
      .next (if s.st = .idle then { s with readv := true } else
        { s with st := .idle, tAct := s.now, readv := true, trace := s.trace ++ notifyEvents s 0b01 })

/-- R110: the last registration wins; nothing is emitted. -/
def Obligations.SubResult : Prop :=
  ∀ (s : State) (sid : Tag), s.halted = false →
    exec (.sub sid) s = .next { s with subValid := true, subId := sid } ∧
    ∀ sid' t, exec (.sub sid) s = .next t → exec (.sub sid') t = .next { s with subValid := true, subId := sid' }

/-- The next state of R112's first table. -/
def Sys2Proof.Machine.tableNext : Instr → ConnState → ConnState
  | .start, .stopped => .idle
  | .stop, _ => .stopped
  | .advon, .idle => .advertising
  | .advoff, .advertising => .idle
  | .conn, _ => .connected
  | .disc, _ => .idle
  | _, c => c

/-- The transport calls of R112's first table. -/
def Sys2Proof.Machine.tableCalls : Instr → ConnState → List Event
  | .stop, .advertising => [.advStop]
  | .advon, .idle => [.advBegin]
  | .advoff, .advertising => [.advStop]
  | _, _ => []

/-- Both tables of R112, which the spec marks as derived from R104 to R109 and R127 to R129: next state and transport calls;
the calls come before the notification, and where a cell of the first table is no change, nothing changes (DISC from Idle
still sets `readv`). -/
def Obligations.TransitionTable : Prop :=
  ∀ s t : State,
    (∀ i : Instr, i ∈ [Instr.start, .stop, .advon, .advoff, .conn, .disc] → exec i s = .next t →
      t.st = tableNext i s.st ∧
      newEvents s t = tableCalls i s.st ++ (if t.st = s.st then [] else notifyEvents s t.st.code) ∧
      (i = .disc → t.readv = true) ∧
      (t.st = s.st → t = if i = .disc then { s with readv := true } else s)) ∧
    (exec .tick s = .next t →
      (s.st = .idle → s.readv = true → t.st = .advertising ∧ .advBegin ∈ newEvents s t) ∧
      (s.st = .idle → s.readv = false →
        (s.params.idleTimeout < s.elapsed s.tAct → t.st = .stopped ∧ t.halted = true ∧ .powerOff ∈ newEvents s t) ∧
        (s.elapsed s.tAct ≤ s.params.idleTimeout → t.st = .idle)) ∧
      (s.st = .advertising →
        (s.params.advTimeout < s.elapsed s.tAdv → t.st = .idle ∧ t.led = false ∧ .advStop ∈ newEvents s t) ∧
        (s.elapsed s.tAdv ≤ s.params.advTimeout → t.st = .advertising)) ∧
      (s.st = .stopped → t.st = .stopped) ∧ (s.st = .connected → t.st = .connected))

/-- R63, which the spec marks as derived from R102 and R85: issuing an FSM command or SUB a second time with the same `now` leaves the state, and the trace, as they are;
POLL always emits its pin events, and BATT a battery notification each time while Connected. -/
def Obligations.RepeatedCommandIsNoOp : Prop :=
  (∀ (i : Instr) (s t : State), i ≠ .poll → i ≠ .tick → i ≠ .batt → exec i s = .next t → exec i t = .next t) ∧
  (∀ s t : State, exec .poll s = .next t →
    ∃ evs, newEvents s t = samplerEvents s.params s.inputs.data ++ evs) ∧
  (∀ s t : State, exec .batt s = .next t → s.st = .connected →
    ∃ l u, exec .batt t = .next u ∧ newEvents t u = [.batteryNotify l])

/-- R103: one `Notify` for each command that changes the state, if a subscriber is registered; none otherwise. -/
def Obligations.NotifyExactlyOncePerChange : Prop :=
  ∀ (i : Instr) (s t : State), exec i s = .next t →
    (newEvents s t).filter isNotify =
      if t.st = s.st then [] else if s.subValid = true then [.notify s.subId t.st.code] else []

/-- R113: a guarded command in a state its guard rejects changes no register and emits nothing. -/
def Obligations.RefusedTransitionIsSilent : Prop :=
  ∀ s : State, s.halted = false →
    (s.st ≠ .stopped → exec .start s = .next s) ∧ (s.st ≠ .idle → exec .advon s = .next s) ∧
    (s.st ≠ .advertising → exec .advoff s = .next s)

/-- The entry effects of `SetState` (R102) hold of every change of state, whichever command makes it. -/
def Obligations.StateEntryEffects : Prop :=
  ∀ (i : Instr) (s t : State), exec i s = .next t → t.st ≠ s.st →
    (t.st = .idle → t.tAct = s.now) ∧ (t.st = .advertising → t.tAdv = s.now) ∧
    (t.st = .connected → t.rptValid = false) ∧ (t.st ≠ .idle → t.readv = false)

/-- What each command may write (R19 and the command rules), and what it leaves: every other register, the inputs, the
commands to come, the parameters; the trace only grows. -/
def Obligations.CommandFrames : Prop :=
  ∀ (i : Instr) (s t : State), exec i s = .next t → ChangesOnly (writes i) (newEvents s t) s t

/-! ### Sampler, mapper, packer, POLL -/

/-- R88: each bit is the level read, inverted; a line held high gives 0x00 and a line held low 0xFF. -/
def Obligations.SamplerInvertsLine : Prop :=
  ∀ s : State,
    (∀ i, i < 8 → (sample s).1.getLsbD i = !s.inputs.data.getLsbD i) ∧
    (s.inputs.data = 0xFF → (sample s).1 = 0x00) ∧ (s.inputs.data = 0x00 → (sample s).1 = 0xFF)

/-- R120: POLL, whole. -/
def Obligations.PollResult : Prop :=
  ∀ s : State, s.halted = false →
    let r := reportOf s.params (~~~s.inputs.data)
    exec .poll s =
      .next (if s.st = .connected ∧ (s.rptValid = false ∨ s.rptCache ≠ r.pack) then
        { s with
          pinLatch := false
          pinClock := false
          rptCache := r.pack
          rptValid := true
          tAct := s.now
          trace := s.trace ++ samplerEvents s.params s.inputs.data ++ [.reportNotify r] }
      else
        { s with
          pinLatch := false
          pinClock := false
          trace := s.trace ++ samplerEvents s.params s.inputs.data })

/-- Not Connected, POLL emits the 43 sampler events and writes neither `rpt_cache`, `rpt_valid` nor `t_act` (R121). The same
when Connected with an unchanged report: that case is R122, which the spec marks as derived from R118 and R120. -/
def Obligations.PollWithoutSend : Prop :=
  ∀ s : State, s.halted = false →
    (s.st ≠ .connected ∨
      (s.rptValid = true ∧ s.rptCache = (reportOf s.params (~~~s.inputs.data)).pack)) →
    (samplerEvents s.params s.inputs.data).length = 43 ∧
    ∃ t, exec .poll s = .next t ∧ newEvents s t = samplerEvents s.params s.inputs.data ∧
      ChangesOnly [.pinLatch, .pinClock] (newEvents s t) s t

/-- R123: CONN clears `rpt_valid`, only a POLL sets it again, and the first POLL on a connection sends the current report,
whatever it is; a POLL trace is the 43 sampler events, then at most one `ReportNotify`. -/
def Obligations.FirstReportOfConnection : Prop :=
  (∀ s t : State, s.st ≠ .connected → exec .conn s = .next t → t.st = .connected ∧ t.rptValid = false) ∧
  (∀ (i : Instr) (s t : State), i ≠ .poll → s.rptValid = false → exec i s = .next t → t.rptValid = false) ∧
  (∀ s t : State, s.st = .connected → s.rptValid = false → exec .poll s = .next t →
    newEvents s t =
      samplerEvents s.params s.inputs.data ++ [.reportNotify (reportOf s.params (~~~s.inputs.data))]) ∧
  (∀ s t : State, exec .poll s = .next t →
    (samplerEvents s.params s.inputs.data).length = 43 ∧
    (newEvents s t = samplerEvents s.params s.inputs.data ∨
      ∃ r, newEvents s t = samplerEvents s.params s.inputs.data ++ [.reportNotify r]))

/-- R119: the detector compares encoded reports: a second POLL whose raw vector differs but whose report is the same sends
nothing and does not touch `t_act`. The rule's example is at the default parameters. -/
def Obligations.SameReportIsNoChange : Prop :=
  (∀ s t u : State, ∀ inp : Inputs, s.st = .connected → exec .poll s = .next t →
    reportOf s.params (~~~inp.data) = reportOf s.params (~~~s.inputs.data) →
    exec .poll { t with inputs := inp } = .next u →
      newEvents t u = samplerEvents s.params inp.data ∧ u.tAct = t.tAct ∧ u.rptCache = t.rptCache) ∧
  reportOf Params.default 0xB0 = ⟨0x00, 0x00, 0x02, 0x7F, 0x7F⟩ ∧
  reportOf Params.default 0xF0 = ⟨0x00, 0x00, 0x02, 0x7F, 0x7F⟩

/-- R77, R118: byte `k` of a report is at bits `[8k+7:8k]` of the cache, so two reports with the same packing are the
same report, and the detector misses no difference. -/
def Obligations.ChangeDetectorComparesEveryBit : Prop :=
  (∀ r : Report, r.pack.extractLsb' 0 8 = r.r0 ∧ r.pack.extractLsb' 8 8 = r.r1 ∧ r.pack.extractLsb' 16 8 = r.r2 ∧
    r.pack.extractLsb' 24 8 = r.r3 ∧ r.pack.extractLsb' 32 8 = r.r4) ∧
  (∀ (s : State) (r r' : Report), s.rptValid = true → s.rptCache = r.pack → (s.changed r' = true ↔ r' ≠ r)) ∧
  (∀ (s : State) (r : Report), s.rptValid = false → s.changed r = true)

/-- The table of the sixteen direction combinations of R100, which the spec marks as derived from R96, R98 and R99, with the
hat under both readings of R97. -/
def Obligations.DirectionTruthTable : Prop :=
  ∀ row ∈ ([
      (0x00, 0, 0, 0, 0x00, 0x00, 0), (0x10, 1, 0, -127, 0x00, 0x81, 1), (0x20, 5, 0, 127, 0x00, 0x7F, 5),
      (0x30, 0, 0, 127, 0x00, 0x7F, 0), (0x40, 7, -127, 0, 0x81, 0x00, 7), (0x50, 8, -127, -127, 0x81, 0x81, 8),
      (0x60, 6, -127, 127, 0x81, 0x7F, 6), (0x70, 6, -127, 127, 0x81, 0x7F, 0)] ++
      [(0x80, 3, 127, 0, 0x7F, 0x00, 3), (0x90, 2, 127, -127, 0x7F, 0x81, 2), (0xA0, 4, 127, 127, 0x7F, 0x7F, 4),
      (0xB0, 2, 127, 127, 0x7F, 0x7F, 0), (0xC0, 0, 127, 0, 0x7F, 0x00, 0), (0xD0, 2, 127, -127, 0x7F, 0x81, 0),
      (0xE0, 4, 127, 127, 0x7F, 0x7F, 0), (0xF0, 2, 127, 127, 0x7F, 0x7F, 0)] :
      List (Raw × Nat × Int × Int × Byte × Byte × Nat)),
    let (raw, hat, x, y, r3, r4, exact) := row
    mapRaw Params.default raw = ⟨0, hat, x, y⟩ ∧ (reportOf Params.default raw).r3 = r3 ∧
    (reportOf Params.default raw).r4 = r4 ∧ mapHat { Params.default with hatMulti := .exactSet } raw = exact

/-- R94, R95: the button bits, for every raw vector and all parameters. -/
def Obligations.ButtonMapping : Prop :=
  ∀ (p : Params) (raw : Raw),
    let btn := (mapRaw p raw).btn
    btn.getLsbD 0 = raw.getLsbD 0 ∧ btn.getLsbD 1 = raw.getLsbD 1 ∧ btn.getLsbD 10 = raw.getLsbD 2 ∧
    btn.getLsbD 11 = raw.getLsbD 3 ∧ ∀ k, 2 ≤ k → k ≤ 9 → btn.getLsbD k = false

/-- R98, R99: Right wins over Left on X; on Y, Down wins over Up, or Up over Down under `Y_PRIORITY = up`. The hat of an
opposite pair alone stays 0. -/
def Obligations.AxisPriority : Prop :=
  ∀ (p : Params) (raw : Raw),
    let m := mapRaw p raw
    let u := raw.getLsbD 4
    let d := raw.getLsbD 5
    let l := raw.getLsbD 6
    let r := raw.getLsbD 7
    (r = true → m.x = 127) ∧ (r = false → l = true → m.x = -127) ∧ (r = false → l = false → m.x = 0) ∧
    (u = false → d = true → m.y = 127) ∧ (u = true → d = false → m.y = -127) ∧ (u = false → d = false → m.y = 0) ∧
    (u = true → d = true → p.yPriority = .down → m.y = 127) ∧
    (u = true → d = true → p.yPriority = .up → m.y = -127) ∧
    (u = false → d = false → l = true → r = true → m.hat = 0) ∧
    (u = true → d = true → l = false → r = false → m.hat = 0)

/-- R117 (a), (d): the images of `Map` and of `Encode` over them, for all parameters. -/
def Obligations.ReportImages : Prop :=
  ∀ (p : Params) (raw : Raw),
    let m := mapRaw p raw
    let r := reportOf p raw
    m.hat ≤ 8 ∧ (m.x = -127 ∨ m.x = 0 ∨ m.x = 127) ∧ (m.y = -127 ∨ m.y = 0 ∨ m.y = 127) ∧
    r.r0 ∈ [(0x00 : Byte), 0x01, 0x02, 0x03] ∧ r.r1 ∈ [(0x00 : Byte), 0x04, 0x08, 0x0C] ∧ r.r2.toNat ≤ 8 ∧
    r.r3 ∈ [(0x00 : Byte), 0x7F, 0x81] ∧ r.r4 ∈ [(0x00 : Byte), 0x7F, 0x81]

/-- R116: the packing, and the source's own example. -/
def Obligations.EncodeLayout : Prop :=
  (∀ (btn : Btn) (hat : Nat) (x y : Int), hat ≤ 8 → -127 ≤ x → x ≤ 127 → -127 ≤ y → y ≤ 127 →
    let r := encodeReport btn hat x y
    r.r0.toNat = btn.toNat % 256 ∧ r.r1.toNat = btn.toNat / 256 ∧ r.r2.toNat = hat ∧ r.r3.toInt = x ∧ r.r4.toInt = y) ∧
  (encodeReport 0x801 3 127 0).bytes = [0x01, 0x08, 0x03, 0x7F, 0x00]

/-- Reading a report inverts `Encode` on its domain, and accepts only reports `Encode` gives; outside the domain `Encode`
exposed alone refuses (R76, R117 (b); the two `none` answers are the form log 12 gives to "refuse"). -/
def Obligations.ReportReadInvertsEncode : Prop :=
  (∀ (btn : Btn) (hat : Nat) (x y : Int), hat ≤ 8 → -127 ≤ x → x ≤ 127 → -127 ≤ y → y ≤ 127 →
    encodeReport? btn hat x y = some (encodeReport btn hat x y) ∧
    decodeReport? (encodeReport btn hat x y) = some ⟨btn, hat, x, y⟩) ∧
  (∀ (r : Report) (m : Mapped), decodeReport? r = some m → encodeReport? m.btn m.hat m.x m.y = some r) ∧
  (∀ (btn : Btn) (hat : Nat) (x y : Int), (9 ≤ hat ∨ x = -128 ∨ y = -128) → encodeReport? btn hat x y = none)

/-- R78: every item of the descriptor's layout stands in the packed report at its place, and the layout is 5 bytes. -/
def Obligations.ReportMatchesDescriptorLayout : Prop :=
  (descriptorLayout.map fun x => x.2).sum = 8 * reportBytes ∧
  ∀ m : Mapped, m.hat ≤ 8 → -127 ≤ m.x → m.x ≤ 127 → -127 ≤ m.y → m.y ≤ 127 →
    ∀ item start width, (item, start, width) ∈ placeItems 0 descriptorLayout →
      (encodeMapped m).pack.toNat / 2 ^ start % 2 ^ width = m.itemValue item

/-- R76: every report the block emits is the report of a raw vector, and its padding nibbles are zero; reading a report
back refuses any other (log 12). -/
def Obligations.EmittedReportsHaveZeroPadding : Prop :=
  (∀ (i : Instr) (s t : State) (r : Report), exec i s = .next t → .reportNotify r ∈ newEvents s t →
    (∃ raw, r = reportOf s.params raw) ∧ r.r1.extractLsb' 4 4 = 0 ∧ r.r2.extractLsb' 4 4 = 0) ∧
  (∀ r : Report, r.r1.extractLsb' 4 4 ≠ 0 ∨ r.r2.extractLsb' 4 4 ≠ 0 → decodeReport? r = none)

/-! ### TICK and BATT -/

/-- What check (4) leaves (R131), from the state the other checks leave. -/
def Sys2Proof.Machine.afterBatteryCheck (s : State) : State :=
  let l := (min (max s.inputs.batt 0) 100).toNat
  if s.params.battPeriod < s.elapsed s.tBatt then
    if s.st = .connected ∧ l ≠ s.battSent.toNat then
      { s with
        tBatt := s.now
        battSent := BitVec.ofNat 8 l
        trace := s.trace ++ [.batteryNotify (BitVec.ofNat 8 l)] }
    else { s with tBatt := s.now }
  else s

/-- R128: the idle power-off, whole: strictly more than `IDLE_TIMEOUT` in Idle with no re-advertise pending; the battery
check does not run. -/
def Obligations.TickIdlePowerOff : Prop :=
  ∀ s : State, s.halted = false → s.st = .idle → s.readv = false → s.params.idleTimeout < s.elapsed s.tAct →
    exec .tick s = .next
      { s with st := .stopped, halted := true, trace := s.trace ++ notifyEvents s 0b00 ++ [.powerOff] }

/-- R127: re-advertise, then blink and battery check in the same TICK (R136). -/
def Obligations.TickReadvertises : Prop :=
  ∀ s : State, s.halted = false → s.st = .idle → s.readv = true →
    exec .tick s = .next (afterBatteryCheck
      { s with
        st := .advertising
        tAdv := s.now
        readv := false
        led := s.blink
        trace := s.trace ++ [.advBegin] ++ notifyEvents s 0b10 })

/-- R129: the advertising timeout. -/
def Obligations.TickAdvertisingTimeout : Prop :=
  ∀ s : State, s.halted = false → s.st = .advertising → s.params.advTimeout < s.elapsed s.tAdv →
    exec .tick s = .next (afterBatteryCheck
      { s with
        st := .idle
        tAct := s.now
        led := false
        trace := s.trace ++ [.advStop] ++ notifyEvents s 0b01 })

/-- R130: the blink, with the phase parameter. The formula divides by `BLINK_HALF`, so the last clause has it positive; the
command completes for a zero `BLINK_HALF` too (log 7). -/
def Obligations.TickBlinks : Prop :=
  ∀ s : State, s.halted = false → s.st = .advertising → s.elapsed s.tAdv ≤ s.params.advTimeout →
    exec .tick s = .next (afterBatteryCheck { s with led := s.blink }) ∧
    (0 < s.params.blinkHalf →
      s.blink = (decide (s.now / s.params.blinkHalf % 2 = 1) ^^ s.params.blinkPhase))

/-- R131, R132, R136: in Stopped, in Connected, and in Idle before its timeout, TICK is the battery check only. -/
def Obligations.TickBatteryOnly : Prop :=
  ∀ s : State, s.halted = false →
    (s.st = .stopped ∨ s.st = .connected ∨
      (s.st = .idle ∧ s.readv = false ∧ s.elapsed s.tAct ≤ s.params.idleTimeout)) →
    exec .tick s = .next (afterBatteryCheck s)

/-- R134: BATT, whole: no change test, `t_batt` not touched. -/
def Obligations.BattResult : Prop :=
  ∀ s : State, s.halted = false →
    let l := (min (max s.inputs.batt 0) 100).toNat
    exec .batt s =
      .next (if s.st = .connected then
        { s with
          battSent := BitVec.ofNat 8 l
          trace := s.trace ++ [.batteryNotify (BitVec.ofNat 8 l)] }
      else s)

/-- R125: elapsed time across a wrap of `now`, and (R166) what it is when `now` falls below the timestamp. -/
def Obligations.ElapsedWrapsAround : Prop :=
  (∀ (s : State) (t d : Nat), t < 2 ^ s.params.timeW → d < 2 ^ s.params.timeW →
    s.inputs.now % 2 ^ s.params.timeW = (t + d) % 2 ^ s.params.timeW → s.elapsed t = d) ∧
  (∀ (s : State) (t k : Nat), t < 2 ^ s.params.timeW → 0 < k → s.inputs.now + k = t →
    s.elapsed t = 2 ^ s.params.timeW - k)

/-- R133: every deadline is strict. -/
def Obligations.DeadlinesAreStrict : Prop :=
  ∀ s t : State, exec .tick s = .next t →
    (s.st = .idle → s.readv = false → (t.halted = true ↔ s.params.idleTimeout + 1 ≤ s.elapsed s.tAct)) ∧
    (s.st = .advertising → (t.st = .idle ↔ s.params.advTimeout + 1 ≤ s.elapsed s.tAdv)) ∧
    (t.halted = false →
      (s.params.battPeriod + 1 ≤ s.elapsed s.tBatt → t.tBatt = s.now) ∧
      (s.elapsed s.tBatt ≤ s.params.battPeriod → t.tBatt = s.tBatt ∧ t.battSent = s.battSent))

/-- R168, R130: the indicator toggles at every half-period boundary of `now` and holds in between; it depends on `now`
alone. -/
def Obligations.BlinkTogglesEachHalfPeriod : Prop :=
  ∀ s s' : State, s'.params = s.params → 0 < s.params.blinkHalf →
    (s'.now = s.now + s.params.blinkHalf → s'.blink = !s.blink) ∧
    (s'.now / s.params.blinkHalf = s.now / s.params.blinkHalf → s'.blink = s.blink)

/-- R135: one TICK changes `st` at most once, and emits at most one of each event; never both `AdvBegin` and `AdvStop`. -/
def Obligations.TickActsAtMostOnce : Prop :=
  ∀ s t : State, exec .tick s = .next t →
    ((newEvents s t).filter isAdvCall).length ≤ 1 ∧ ((newEvents s t).filter isNotify).length ≤ 1 ∧
    (newEvents s t).count .powerOff ≤ 1 ∧ ((newEvents s t).filter isBatteryNotify).length ≤ 1

/-- Power-off is reached only through TICK's idle check (R115, R128, R151), by every command from every running state. -/
def Obligations.PowerOffOnlyByIdleGuard : Prop :=
  ∀ (i : Instr) (s t : State), exec i s = .next t → (t.halted = true ∨ .powerOff ∈ newEvents s t) →
    i = .tick ∧ s.st = .idle ∧ s.readv = false ∧ s.params.idleTimeout < s.elapsed s.tAct ∧
    t.halted = true ∧ t.st = .stopped ∧ (newEvents s t).count .powerOff = 1

/-- R149, R114: the block calls the transport only under the source's guards. -/
def Obligations.TransportCallsGuarded : Prop :=
  ∀ (i : Instr) (s t : State), exec i s = .next t →
    (∀ r, .reportNotify r ∈ newEvents s t → s.st = .connected) ∧
    (∀ l, .batteryNotify l ∈ newEvents s t → s.st = .connected) ∧
    (.advBegin ∈ newEvents s t → s.st = .idle ∧ t.st = .advertising) ∧
    (.advStop ∈ newEvents s t → s.st = .advertising ∧ t.st ≠ .advertising)

/-- R80, R36: every battery level that leaves the block is the clamped sample, at most 100. -/
def Obligations.BatteryLevelsAreClamped : Prop :=
  ∀ (i : Instr) (s t : State) (l : Byte), exec i s = .next t → .batteryNotify l ∈ newEvents s t →
    l.toNat ≤ 100 ∧ (l.toNat : Int) = min (max s.inputs.batt 0) 100 ∧ t.battSent = l

/-- R150: digital I/O is used by POLL only (its sampler), the battery sample by TICK and BATT only, and the power
collaborator by TICK only: the events of the other commands are calls of other collaborators, and what a draw gives makes
no difference to them. -/
def Obligations.CollaboratorsUsedOnlyByTheirCommands : Prop :=
  (∀ (i : Instr) (s : State) (d : BitVec 8) (b : Int),
    (i ≠ .poll →
      exec i { s with inputs := ⟨s.inputs.now, d, s.inputs.batt⟩ } =
        mapNext (fun t => { t with inputs := ⟨s.inputs.now, d, s.inputs.batt⟩ }) (exec i s)) ∧
    (i ≠ .tick → i ≠ .batt →
      exec i { s with inputs := ⟨s.inputs.now, s.inputs.data, b⟩ } =
        mapNext (fun t => { t with inputs := ⟨s.inputs.now, s.inputs.data, b⟩ }) (exec i s))) ∧
  (∀ (i : Instr) (s t : State) (e : Event), exec i s = .next t → e ∈ newEvents s t →
    (collaboratorOf e = .digitalIO → i = .poll) ∧ (collaboratorOf e = .power → i = .tick))

/-- R27: `led` is written in two places only, both in TICK: the blink while Advertising, and off at the advertising
timeout. -/
def Obligations.IndicatorWrittenOnlyByTick : Prop :=
  ∀ (i : Instr) (s t : State), exec i s = .next t → t.led ≠ s.led →
    i = .tick ∧
      ((t.st = .advertising ∧ t.led = s.blink) ∨
        (s.st = .advertising ∧ t.st = .idle ∧ t.led = false ∧ s.params.advTimeout < s.elapsed s.tAdv))
end

