-- ==== Sys2Proof/Laws/State.lean ====
section
/-!
SUPPORT. One lemma per field for each named update of the state, so that no proof unfolds a record update.
-/

namespace Sys2Proof.Machine

section emit
variable (s : State) (e : Event)

@[simp] theorem emit_st : (s.emit e).st = s.st := rfl
@[simp] theorem emit_tAct : (s.emit e).tAct = s.tAct := rfl
@[simp] theorem emit_tAdv : (s.emit e).tAdv = s.tAdv := rfl
@[simp] theorem emit_tBatt : (s.emit e).tBatt = s.tBatt := rfl
@[simp] theorem emit_battSent : (s.emit e).battSent = s.battSent := rfl
@[simp] theorem emit_rptCache : (s.emit e).rptCache = s.rptCache := rfl
@[simp] theorem emit_rptValid : (s.emit e).rptValid = s.rptValid := rfl
@[simp] theorem emit_led : (s.emit e).led = s.led := rfl
@[simp] theorem emit_readv : (s.emit e).readv = s.readv := rfl
@[simp] theorem emit_subValid : (s.emit e).subValid = s.subValid := rfl
@[simp] theorem emit_subId : (s.emit e).subId = s.subId := rfl
@[simp] theorem emit_halted : (s.emit e).halted = s.halted := rfl
@[simp] theorem emit_err : (s.emit e).err = s.err := rfl
@[simp] theorem emit_pinLatch : (s.emit e).pinLatch = s.pinLatch := rfl
@[simp] theorem emit_pinClock : (s.emit e).pinClock = s.pinClock := rfl
@[simp] theorem emit_trace : (s.emit e).trace = s.trace ++ [e] := rfl
@[simp] theorem emit_inputs : (s.emit e).inputs = s.inputs := rfl
@[simp] theorem emit_pending : (s.emit e).pending = s.pending := rfl
@[simp] theorem emit_params : (s.emit e).params = s.params := rfl

end emit

section driveLatch
variable (s : State) (v : Bool)

@[simp] theorem driveLatch_st : (s.drivePin .latch v).st = s.st := rfl
@[simp] theorem driveLatch_tAct : (s.drivePin .latch v).tAct = s.tAct := rfl
@[simp] theorem driveLatch_tAdv : (s.drivePin .latch v).tAdv = s.tAdv := rfl
@[simp] theorem driveLatch_tBatt : (s.drivePin .latch v).tBatt = s.tBatt := rfl
@[simp] theorem driveLatch_battSent : (s.drivePin .latch v).battSent = s.battSent := rfl
@[simp] theorem driveLatch_rptCache : (s.drivePin .latch v).rptCache = s.rptCache := rfl
@[simp] theorem driveLatch_rptValid : (s.drivePin .latch v).rptValid = s.rptValid := rfl
@[simp] theorem driveLatch_led : (s.drivePin .latch v).led = s.led := rfl
@[simp] theorem driveLatch_readv : (s.drivePin .latch v).readv = s.readv := rfl
@[simp] theorem driveLatch_subValid : (s.drivePin .latch v).subValid = s.subValid := rfl
@[simp] theorem driveLatch_subId : (s.drivePin .latch v).subId = s.subId := rfl
@[simp] theorem driveLatch_halted : (s.drivePin .latch v).halted = s.halted := rfl
@[simp] theorem driveLatch_err : (s.drivePin .latch v).err = s.err := rfl
@[simp] theorem driveLatch_pinLatch : (s.drivePin .latch v).pinLatch = v := rfl
@[simp] theorem driveLatch_pinClock : (s.drivePin .latch v).pinClock = s.pinClock := rfl
@[simp] theorem driveLatch_trace : (s.drivePin .latch v).trace = s.trace ++ [.pinWrite .latch v] := rfl
@[simp] theorem driveLatch_inputs : (s.drivePin .latch v).inputs = s.inputs := rfl
@[simp] theorem driveLatch_pending : (s.drivePin .latch v).pending = s.pending := rfl
@[simp] theorem driveLatch_params : (s.drivePin .latch v).params = s.params := rfl

end driveLatch

section driveClock
variable (s : State) (v : Bool)

@[simp] theorem driveClock_st : (s.drivePin .clock v).st = s.st := rfl
@[simp] theorem driveClock_tAct : (s.drivePin .clock v).tAct = s.tAct := rfl
@[simp] theorem driveClock_tAdv : (s.drivePin .clock v).tAdv = s.tAdv := rfl
@[simp] theorem driveClock_tBatt : (s.drivePin .clock v).tBatt = s.tBatt := rfl
@[simp] theorem driveClock_battSent : (s.drivePin .clock v).battSent = s.battSent := rfl
@[simp] theorem driveClock_rptCache : (s.drivePin .clock v).rptCache = s.rptCache := rfl
@[simp] theorem driveClock_rptValid : (s.drivePin .clock v).rptValid = s.rptValid := rfl
@[simp] theorem driveClock_led : (s.drivePin .clock v).led = s.led := rfl
@[simp] theorem driveClock_readv : (s.drivePin .clock v).readv = s.readv := rfl
@[simp] theorem driveClock_subValid : (s.drivePin .clock v).subValid = s.subValid := rfl
@[simp] theorem driveClock_subId : (s.drivePin .clock v).subId = s.subId := rfl
@[simp] theorem driveClock_halted : (s.drivePin .clock v).halted = s.halted := rfl
@[simp] theorem driveClock_err : (s.drivePin .clock v).err = s.err := rfl
@[simp] theorem driveClock_pinLatch : (s.drivePin .clock v).pinLatch = s.pinLatch := rfl
@[simp] theorem driveClock_pinClock : (s.drivePin .clock v).pinClock = v := rfl
@[simp] theorem driveClock_trace : (s.drivePin .clock v).trace = s.trace ++ [.pinWrite .clock v] := rfl
@[simp] theorem driveClock_inputs : (s.drivePin .clock v).inputs = s.inputs := rfl
@[simp] theorem driveClock_pending : (s.drivePin .clock v).pending = s.pending := rfl
@[simp] theorem driveClock_params : (s.drivePin .clock v).params = s.params := rfl

end driveClock

section sendLevel
variable (s : State) (l : Nat)

@[simp] theorem sendLevel_st : (s.sendLevel l).st = s.st := rfl
@[simp] theorem sendLevel_tAct : (s.sendLevel l).tAct = s.tAct := rfl
@[simp] theorem sendLevel_tAdv : (s.sendLevel l).tAdv = s.tAdv := rfl
@[simp] theorem sendLevel_tBatt : (s.sendLevel l).tBatt = s.tBatt := rfl
@[simp] theorem sendLevel_battSent : (s.sendLevel l).battSent = BitVec.ofNat 8 l := rfl
@[simp] theorem sendLevel_rptCache : (s.sendLevel l).rptCache = s.rptCache := rfl
@[simp] theorem sendLevel_rptValid : (s.sendLevel l).rptValid = s.rptValid := rfl
@[simp] theorem sendLevel_led : (s.sendLevel l).led = s.led := rfl
@[simp] theorem sendLevel_readv : (s.sendLevel l).readv = s.readv := rfl
@[simp] theorem sendLevel_subValid : (s.sendLevel l).subValid = s.subValid := rfl
@[simp] theorem sendLevel_subId : (s.sendLevel l).subId = s.subId := rfl
@[simp] theorem sendLevel_halted : (s.sendLevel l).halted = s.halted := rfl
@[simp] theorem sendLevel_err : (s.sendLevel l).err = s.err := rfl
@[simp] theorem sendLevel_pinLatch : (s.sendLevel l).pinLatch = s.pinLatch := rfl
@[simp] theorem sendLevel_pinClock : (s.sendLevel l).pinClock = s.pinClock := rfl
@[simp] theorem sendLevel_trace : (s.sendLevel l).trace = s.trace ++ [.batteryNotify (BitVec.ofNat 8 l)] := rfl
@[simp] theorem sendLevel_inputs : (s.sendLevel l).inputs = s.inputs := rfl
@[simp] theorem sendLevel_pending : (s.sendLevel l).pending = s.pending := rfl
@[simp] theorem sendLevel_params : (s.sendLevel l).params = s.params := rfl

end sendLevel

section sendReport
variable (s : State) (r : Report)

@[simp] theorem sendReport_st : (s.sendReport r).st = s.st := rfl
@[simp] theorem sendReport_tAct : (s.sendReport r).tAct = s.now := rfl
@[simp] theorem sendReport_tAdv : (s.sendReport r).tAdv = s.tAdv := rfl
@[simp] theorem sendReport_tBatt : (s.sendReport r).tBatt = s.tBatt := rfl
@[simp] theorem sendReport_battSent : (s.sendReport r).battSent = s.battSent := rfl
@[simp] theorem sendReport_rptCache : (s.sendReport r).rptCache = r.pack := rfl
@[simp] theorem sendReport_rptValid : (s.sendReport r).rptValid = true := rfl
@[simp] theorem sendReport_led : (s.sendReport r).led = s.led := rfl
@[simp] theorem sendReport_readv : (s.sendReport r).readv = s.readv := rfl
@[simp] theorem sendReport_subValid : (s.sendReport r).subValid = s.subValid := rfl
@[simp] theorem sendReport_subId : (s.sendReport r).subId = s.subId := rfl
@[simp] theorem sendReport_halted : (s.sendReport r).halted = s.halted := rfl
@[simp] theorem sendReport_err : (s.sendReport r).err = s.err := rfl
@[simp] theorem sendReport_pinLatch : (s.sendReport r).pinLatch = s.pinLatch := rfl
@[simp] theorem sendReport_pinClock : (s.sendReport r).pinClock = s.pinClock := rfl
@[simp] theorem sendReport_trace : (s.sendReport r).trace = s.trace ++ [.reportNotify r] := rfl
@[simp] theorem sendReport_inputs : (s.sendReport r).inputs = s.inputs := rfl
@[simp] theorem sendReport_pending : (s.sendReport r).pending = s.pending := rfl
@[simp] theorem sendReport_params : (s.sendReport r).params = s.params := rfl

end sendReport

section illegalWord
variable (s : State) (w : CmdWord)

@[simp] theorem illegalWord_st : (s.illegalWord w).st = s.st := rfl
@[simp] theorem illegalWord_tAct : (s.illegalWord w).tAct = s.tAct := rfl
@[simp] theorem illegalWord_tAdv : (s.illegalWord w).tAdv = s.tAdv := rfl
@[simp] theorem illegalWord_tBatt : (s.illegalWord w).tBatt = s.tBatt := rfl
@[simp] theorem illegalWord_battSent : (s.illegalWord w).battSent = s.battSent := rfl
@[simp] theorem illegalWord_rptCache : (s.illegalWord w).rptCache = s.rptCache := rfl
@[simp] theorem illegalWord_rptValid : (s.illegalWord w).rptValid = s.rptValid := rfl
@[simp] theorem illegalWord_led : (s.illegalWord w).led = s.led := rfl
@[simp] theorem illegalWord_readv : (s.illegalWord w).readv = s.readv := rfl
@[simp] theorem illegalWord_subValid : (s.illegalWord w).subValid = s.subValid := rfl
@[simp] theorem illegalWord_subId : (s.illegalWord w).subId = s.subId := rfl
@[simp] theorem illegalWord_halted : (s.illegalWord w).halted = s.halted := rfl
@[simp] theorem illegalWord_err : (s.illegalWord w).err = true := rfl
@[simp] theorem illegalWord_pinLatch : (s.illegalWord w).pinLatch = s.pinLatch := rfl
@[simp] theorem illegalWord_pinClock : (s.illegalWord w).pinClock = s.pinClock := rfl
@[simp] theorem illegalWord_trace : (s.illegalWord w).trace = s.trace := rfl
@[simp] theorem illegalWord_inputs : (s.illegalWord w).inputs = s.inputs := rfl
@[simp] theorem illegalWord_pending : (s.illegalWord w).pending = s.pending := rfl
@[simp] theorem illegalWord_params : (s.illegalWord w).params = s.params := rfl

end illegalWord

section accept
variable (s : State) (a : Arrival) (rest : List Arrival)

@[simp] theorem accept_st : (s.accept a rest).st = s.st := rfl
@[simp] theorem accept_tAct : (s.accept a rest).tAct = s.tAct := rfl
@[simp] theorem accept_tAdv : (s.accept a rest).tAdv = s.tAdv := rfl
@[simp] theorem accept_tBatt : (s.accept a rest).tBatt = s.tBatt := rfl
@[simp] theorem accept_battSent : (s.accept a rest).battSent = s.battSent := rfl
@[simp] theorem accept_rptCache : (s.accept a rest).rptCache = s.rptCache := rfl
@[simp] theorem accept_rptValid : (s.accept a rest).rptValid = s.rptValid := rfl
@[simp] theorem accept_led : (s.accept a rest).led = s.led := rfl
@[simp] theorem accept_readv : (s.accept a rest).readv = s.readv := rfl
@[simp] theorem accept_subValid : (s.accept a rest).subValid = s.subValid := rfl
@[simp] theorem accept_subId : (s.accept a rest).subId = s.subId := rfl
@[simp] theorem accept_halted : (s.accept a rest).halted = s.halted := rfl
@[simp] theorem accept_err : (s.accept a rest).err = s.err := rfl
@[simp] theorem accept_pinLatch : (s.accept a rest).pinLatch = s.pinLatch := rfl
@[simp] theorem accept_pinClock : (s.accept a rest).pinClock = s.pinClock := rfl
@[simp] theorem accept_trace : (s.accept a rest).trace = [] := rfl
@[simp] theorem accept_inputs : (s.accept a rest).inputs = a.inputs := rfl
@[simp] theorem accept_pending : (s.accept a rest).pending = rest := rfl
@[simp] theorem accept_params : (s.accept a rest).params = s.params := rfl

end accept

@[simp] theorem emit_now (s : State) (e : Event) : (s.emit e).now = s.now := rfl
@[simp] theorem emit_elapsed (s : State) (e : Event) (t : Nat) : (s.emit e).elapsed t = s.elapsed t := rfl

end Sys2Proof.Machine
end

