-- ==== Sys2Proof/Laws/Ops.lean ====
section
/-!
SUPPORT. For each shared operation, one lemma that says once everything it does.
-/

namespace Sys2Proof.Machine

/-! ### The shared precondition and the step -/

theorem running_next_iff {s t : State} {body : State → State} :
    s.running body = .next t ↔ s.halted = false ∧ body s = t := by
  unfold State.running
  cases s.halted <;> simp

/-- What a running step can do: wait, run the decoded command, or take the exception of an illegal word. -/
theorem step_next_cases {s t : State} (h : step s = .next t) :
    s.halted = false ∧
      ((s.pending = [] ∧ t = s) ∨
        ∃ a rest, s.pending = a :: rest ∧
          ((∃ i, decode a.word = .ok i ∧ exec i (s.accept a rest) = .next t) ∨
            (∃ r, decode a.word = .error r ∧ t = (s.accept a rest).illegalWord a.word))) := by
  unfold step at h
  cases hh : s.halted with
  | true => simp [hh] at h
  | false =>
    refine ⟨rfl, ?_⟩
    cases hp : s.pending with
    | nil =>
      simp only [hh, State.fetch, hp] at h
      exact .inl ⟨rfl, by simpa using h.symm⟩
    | cons a rest =>
      simp only [hh, State.fetch, hp] at h
      refine .inr ⟨a, rest, rfl, ?_⟩
      cases hd : decode a.word with
      | ok i => exact .inl ⟨i, rfl, by simpa [hd] using h⟩
      | error r => exact .inr ⟨r, rfl, by simpa [hd] using h.symm⟩

/-! ### SetState (R102) -/

theorem notifyState_eq (s : State) (c : ConnState) :
    s.notifyState c = { s with trace := s.trace ++ notifyEvents s c.code } := by
  unfold State.notifyState notifyEvents
  split <;> simp [State.emit]

theorem setState_self {s : State} {c : ConnState} (h : c = s.st) : s.setState c = s := by
  simp [State.setState, h]

theorem setState_of_ne {s : State} {c : ConnState} (h : c ≠ s.st) :
    s.setState c =
      { s with
        st := c
        tAct := if c = .idle then s.now else s.tAct
        tAdv := if c = .advertising then s.now else s.tAdv
        rptValid := if c = .connected then false else s.rptValid
        readv := if c = .idle then s.readv else false
        trace := s.trace ++ notifyEvents s c.code } := by
  cases c <;> simp [State.setState, h, notifyState_eq, State.now, notifyEvents]

/-! ### The sampler (R85) -/

theorem sampleBit_eq (i : Nat) (raw : Raw) (s : State) :
    sampleBit i raw s =
      (setBit raw i (!s.readPin i),
        { s with
          pinClock := false
          trace := s.trace ++
            [.pinRead .data (s.inputs.data.getLsbD i), .pinWrite .clock true, .delay s.params.tClk,
              .pinWrite .clock false, .delay s.params.tClk] }) := by
  simp [sampleBit, State.drivePin, State.emit, State.readPin]

/-- The sampler gives the eight levels inverted, leaves both pins low and emits its 43 events; nothing else changes. -/
theorem sample_eq (s : State) :
    sample s =
      (~~~s.inputs.data,
        { s with pinLatch := false, pinClock := false, trace := s.trace ++ samplerEvents s.params s.inputs.data }) := by
  have raw_eq : ∀ d : BitVec 8,
      setBit (setBit (setBit (setBit (setBit (setBit (setBit (setBit (0 : Raw) 0 (!d.getLsbD 0)) 1 (!d.getLsbD 1)) 2
        (!d.getLsbD 2)) 3 (!d.getLsbD 3)) 4 (!d.getLsbD 4)) 5 (!d.getLsbD 5)) 6 (!d.getLsbD 6)) 7 (!d.getLsbD 7) = ~~~d := by
    decide
  have raw := raw_eq s.inputs.data
  simp [sample, sampleBits, nRaw, sampleBit_eq, State.drivePin, State.emit, State.readPin, samplerEvents,
    List.range, List.range.loop] at raw ⊢
  exact raw

/-! ### The checks of TICK (R127 to R131) -/

theorem tickReadvertise_eq (s : State) :
    tickReadvertise s =
      if s.readv = true ∧ s.st = .idle then
        { s with
          st := .advertising
          tAdv := s.now
          readv := false
          trace := s.trace ++ [.advBegin] ++ notifyEvents s 0b10 }
      else s := by
  unfold tickReadvertise State.readvertiseDue
  by_cases h : s.readv = true ∧ s.st = .idle
  · obtain ⟨hr, hi⟩ := h
    have hne : ConnState.advertising ≠ (s.emit .advBegin).st := by simp [hi]
    rw [setState_of_ne hne]
    simp [hr, hi, State.emit, State.now, notifyEvents, ConnState.code]
  · rcases Bool.eq_false_or_eq_true s.readv with hr | hr <;> simp_all

theorem powerOff_eq {s : State} (h : s.st = .idle) :
    powerOff s =
      { s with
        st := .stopped
        readv := false
        halted := true
        trace := s.trace ++ notifyEvents s 0b00 ++ [.powerOff] } := by
  have hne : ConnState.stopped ≠ s.st := by simp [h]
  simp [powerOff, setState_of_ne hne, State.emit, ConnState.code]

theorem tickAdvertising_eq (s : State) :
    tickAdvertising s =
      if s.st = .advertising then
        if s.params.advTimeout < s.elapsed s.tAdv then
          { s with
            st := .idle
            tAct := s.now
            led := false
            trace := s.trace ++ [.advStop] ++ notifyEvents s 0b01 }
        else { s with led := s.blink }
      else s := by
  unfold tickAdvertising State.advDue
  by_cases h : s.st = .advertising
  · have hne : ConnState.idle ≠ (s.emit .advStop).st := by simp [h]
    rw [setState_of_ne hne]
    simp [h, State.emit, State.now, notifyEvents, ConnState.code]
  · simp [h]

theorem tickBattery_eq (s : State) :
    tickBattery s =
      if s.params.battPeriod < s.elapsed s.tBatt then
        if s.st = .connected ∧ s.battSample ≠ s.battSent.toNat then
          { s with
            tBatt := s.now
            battSent := BitVec.ofNat 8 s.battSample
            trace := s.trace ++ [.batteryNotify (BitVec.ofNat 8 s.battSample)] }
        else { s with tBatt := s.now }
      else s := by
  unfold tickBattery State.battDue
  by_cases hd : s.params.battPeriod < s.elapsed s.tBatt
  · simp only [hd, decide_true, if_true]
    by_cases hs : s.st = .connected ∧ s.battSample ≠ s.battSent.toNat
    · rw [if_pos hs, if_pos (by simpa [State.guardSend, State.battSample, u8] using hs)]
      rfl
    · rw [if_neg hs, if_neg (by simpa [State.guardSend, State.battSample, u8] using hs)]
  · simp [hd]

theorem clampLevel_le (b : Int) : clampLevel b ≤ 100 := by
  unfold clampLevel battMax; omega

theorem elapsed_self (s : State) : s.elapsed s.now = 0 := by
  simp [State.elapsed, subMod]

theorem now_lt (s : State) : s.now < 2 ^ s.params.timeW := Nat.mod_lt _ (by positivity)

end Sys2Proof.Machine
end

