-- ==== Sys2Proof/Laws/PerInstr.lean ====
section
/-!
SUPPORT. Facts about each command as syntax, one lemma per constructor.
-/

namespace Sys2Proof.Laws.EncodesToRow

/-- The `mask` column of spec/opcode_table.json. -/
def rowMask : Instr → CmdWord
  | .sub _ => 0x0F
  | .start | .stop | .advon | .advoff | .conn | .disc | .poll | .tick | .batt => 0xFF

/-- The `match` column of spec/opcode_table.json. -/
def rowMatch : Instr → CmdWord
  | .start => 0x01
  | .stop => 0x02
  | .advon => 0x03
  | .advoff => 0x04
  | .conn => 0x05
  | .disc => 0x06
  | .poll => 0x07
  | .tick => 0x08
  | .batt => 0x09
  | .sub _ => 0x0A

/-- The word of a command matches its row of the table, and its fields are legal (R67). -/
def Statement (i : Instr) : Prop :=
  encode i &&& rowMask i = rowMatch i ∧ (Cmd8.ofWord (encode i)).wellFormed = true

theorem start : Statement .start := by unfold Statement; decide
theorem stop : Statement .stop := by unfold Statement; decide
theorem advon : Statement .advon := by unfold Statement; decide
theorem advoff : Statement .advoff := by unfold Statement; decide
theorem conn : Statement .conn := by unfold Statement; decide
theorem disc : Statement .disc := by unfold Statement; decide
theorem poll : Statement .poll := by unfold Statement; decide
theorem tick : Statement .tick := by unfold Statement; decide
theorem batt : Statement .batt := by unfold Statement; decide

theorem sub (sid : Tag) : Statement (.sub sid) := by
  revert sid
  unfold Statement
  decide

end Sys2Proof.Laws.EncodesToRow
end

