-- ==== Sys2Proof/Laws/Report.lean ====
section
/-!
SUPPORT. What the packer and its formats do, said once each.
-/

namespace Sys2Proof.Machine

theorem append_toNat {n m : Nat} (a : BitVec n) (b : BitVec m) : (a ++ b).toNat = a.toNat * 2 ^ m + b.toNat := by
  rw [BitVec.toNat_append, ← Nat.shiftLeft_add_eq_or_of_lt b.isLt, Nat.shiftLeft_eq]

/-- The packed report as a number (R77). -/
theorem pack_toNat (r : Report) :
    r.pack.toNat =
      r.r0.toNat + 2 ^ 8 * r.r1.toNat + 2 ^ 16 * r.r2.toNat + 2 ^ 24 * r.r3.toNat + 2 ^ 32 * r.r4.toNat := by
  simp only [Report.pack, append_toNat]
  omega

/-- The domain of `Encode`, as inequalities. -/
theorem encodable_iff (hat : Nat) (x y : Int) :
    encodable hat x y = true ↔ hat ≤ 8 ∧ -127 ≤ x ∧ x ≤ 127 ∧ -127 ≤ y ∧ y ≤ 127 := by
  simp only [encodable, Bool.and_eq_true, decide_eq_true_eq, and_assoc]
  simp only [axisMax]

/-- `Encode` and its refusal (R117 (b)). -/
theorem encodeReport?_eq_some_iff {btn : Btn} {hat : Nat} {x y : Int} {r : Report} :
    encodeReport? btn hat x y = some r ↔ encodable hat x y = true ∧ encodeReport btn hat x y = r := by
  unfold encodeReport?
  split <;> simp_all

end Sys2Proof.Machine
end

