-- ==== Sys2Proof/Tests/Slice0.lean ====
section
/-!
SUPPORT. Tests. Expected results come from spec/95_test_vectors.md (the id stands in the comment) or are worked out by hand
from the rule named. The second half gives, for every statement with hypotheses, a state and operands that meet them.
-/

namespace Sys2Proof.Tests

open Sys2Proof Sys2Proof.Machine

/-- A state in `c` at time `now`, with subscriber 1 registered (the convention of spec/95_test_vectors.md). -/
def at_ (c : ConnState) (now : Nat) : State :=
  { State.reset with st := c, subValid := true, subId := 1, inputs := ⟨now, 0xFF, 0⟩ }

/-- What a command leaves, seen through `f`. -/
def after {α : Type} (f : State → α) (i : Instr) (s : State) : Option α :=
  match exec i s with
  | .next t => some (f t)
  | .fault _ => none
  | .refused _ => none

/-- What a step leaves, seen through `f`. -/
def stepped {α : Type} (f : State → α) (s : State) : Option α :=
  match step s with
  | .next t => some (f t)
  | .fault _ => none
  | .refused _ => none

/-- A command of the poll loop with the given word. -/
def cmd (w : CmdWord) : Arrival := ⟨.pollLoop, w, ⟨7, 0xFF, 0⟩⟩

/-! ### WellFormed: one ill-formed term for each check -/

theorem test_opcode_zero_refused : Cmd8.wellFormed ⟨0x0, 0x0⟩ = false := by decide
theorem test_opcode_reserved_refused : Cmd8.wellFormed ⟨0xB, 0x0⟩ = false := by decide
theorem test_arg_not_zero_refused : Cmd8.wellFormed ⟨0x1, 0x1⟩ = false := by decide
theorem test_latch_too_short_refused : Params.wellFormed { Params.default with tLatch := 11 } = false := by decide
theorem test_clock_too_short_refused : Params.wellFormed { Params.default with tClk := 5 } = false := by decide
theorem test_blink_half_zero_refused : Params.wellFormed { Params.default with blinkHalf := 0 } = false := by decide
theorem test_defaults_well_formed : Params.default.wellFormed = true := by decide

/-! ### Decoding: words written out from R64 and R65 (spec/95_test_vectors.md section 2) -/

theorem test_decode_start : decode 0b00000001 = .ok .start := by decide
theorem test_decode_stop : decode 0b00000010 = .ok .stop := by decide
theorem test_decode_advon : decode 0b00000011 = .ok .advon := by decide
theorem test_decode_advoff : decode 0b00000100 = .ok .advoff := by decide
theorem test_decode_conn : decode 0b00000101 = .ok .conn := by decide
theorem test_decode_disc : decode 0b00000110 = .ok .disc := by decide
theorem test_decode_poll : decode 0b00000111 = .ok .poll := by decide
theorem test_decode_tick : decode 0b00001000 = .ok .tick := by decide
theorem test_decode_batt : decode 0b00001001 = .ok .batt := by decide
theorem test_decode_sub_3 : decode 0b00111010 = .ok (.sub 3) := by decide
theorem test_decode_sub_15 : decode 0b11111010 = .ok (.sub 15) := by decide
theorem test_decode_illegal :
    decode 0x00 = .error .opZero ∧ decode 0x10 = .error .opZero ∧ decode 0x0B = .error .opReserved ∧
    decode 0x0F = .error .opReserved ∧ decode 0x17 = .error .argNotZero ∧ decode 0x99 = .error .argNotZero ∧
    decode 0xFF = .error .opReserved := by decide
theorem test_table_word : decodeTableWord 8 0x5A = some (.sub 5) ∧ decodeTableWord 8 0 = none := by decide

/-! ### Text (R82 to R84) -/

/-- `SUB 0x3 ; x`, `T: CONN`, `ITER`. -/
theorem test_assemble :
    assemble [['S', 'U', 'B', ' ', '0', 'x', '3', ' ', ';', 'x'], ['T', ':', ' ', 'C', 'O', 'N', 'N'], [';'],
      ['I', 'T', 'E', 'R']] =
      some [(.pollLoop, 0x3A), (.transport, 0x05), (.pollLoop, 0x07), (.pollLoop, 0x08)] := by decide
theorem test_assemble_bad_tag : assemble [['S', 'U', 'B', ' ', '1', '6']] = none := by decide

/-! ### The state machine (section 5) -/

theorem test_start : after (fun t => (t.st, t.tAct, t.trace)) .start (at_ .stopped 1000) =
    some (.idle, 1000, [.notify 1 0b01]) := by decide
theorem test_start_idle : after id .start (at_ .idle 1000) = some (at_ .idle 1000) := by decide
theorem test_stop : after (fun t => (t.st, t.trace)) .stop (at_ .advertising 1000) =
    some (.stopped, [.advStop, .notify 1 0b00]) := by decide
/-- F6. -/
theorem test_stop_drops_readvertise : after (·.readv) .stop { at_ .idle 9 with readv := true } = some false := by decide
theorem test_advon : after (fun t => (t.st, t.tAdv, t.trace)) .advon (at_ .idle 1000) =
    some (.advertising, 1000, [.advBegin, .notify 1 0b10]) := by decide
/-- S5. -/
theorem test_advon_connected : after id .advon (at_ .connected 1) = some (at_ .connected 1) := by decide
/-- F7. -/
theorem test_advoff : after (fun t => (t.st, t.led, t.trace)) .advoff { at_ .advertising 5 with led := true } =
    some (.idle, true, [.advStop, .notify 1 0b01]) := by decide
/-- F5. -/
theorem test_conn : after (fun t => (t.st, t.readv, t.rptValid, t.trace)) .conn
    { at_ .idle 9 with readv := true, rptValid := true } = some (.connected, false, false, [.notify 1 0b11]) := by decide
/-- F8. -/
theorem test_conn_advertising : after (fun t => (t.led, t.trace)) .conn { at_ .advertising 9 with led := true } =
    some (true, [.notify 1 0b11]) := by decide
theorem test_disc : after (fun t => (t.st, t.tAct, t.readv, t.trace)) .disc (at_ .connected 1000) =
    some (.idle, 1000, true, [.notify 1 0b01]) := by decide
theorem test_disc_idle : after (fun t => (t.tAct, t.readv, t.trace)) .disc (at_ .idle 1000) =
    some (0, true, []) := by decide
/-- F3. -/
theorem test_sub : after (fun t => (t.subValid, t.subId, t.trace)) (.sub 5) { at_ .idle 1 with subId := 3 } =
    some (true, 5, []) := by decide
/-- F1. -/
theorem test_no_subscriber : after (fun t => (t.st, t.trace)) .start State.reset = some (.idle, []) := by decide

/-! ### Mapper and packer (section 4) -/

theorem test_report_0x89 : (reportOf Params.default 0x89).bytes = [0x01, 0x08, 0x03, 0x7F, 0x00] := by decide
theorem test_report_0xFF : (reportOf Params.default 0xFF).bytes = [0x03, 0x0C, 0x02, 0x7F, 0x7F] := by decide
theorem test_report_exact_set :
    (reportOf { Params.default with hatMulti := .exactSet } 0x70).bytes = [0x00, 0x00, 0x00, 0x81, 0x7F] := by decide
theorem test_report_y_up :
    (reportOf { Params.default with yPriority := .up } 0x30).bytes = [0x00, 0x00, 0x00, 0x00, 0x81] := by decide
theorem test_encode_extremes : (encodeReport? 0xFFF 8 (-127) (-127)).map (·.bytes) =
    some [0xFF, 0x0F, 0x08, 0x81, 0x81] := by decide
theorem test_encode_refuses : encodeReport? 0 9 0 0 = none ∧ encodeReport? 0 0 (-128) 0 = none := by decide
theorem test_read_refuses_padding : decodeReport? ⟨0, 0x10, 0, 0, 0⟩ = none := by decide
theorem test_hat_degrees : hatDegrees 4 = some 135 ∧ hatDegrees 0 = none := by decide

/-! ### POLL (sections 3 and 6) -/

/-- Levels `0,1,1,0,1,1,1,1` in read order (R120). -/
theorem test_poll_sends :
    after (fun t => (t.rptCache, t.rptValid, t.tAct, t.trace.length, t.trace.getLast?)) .poll
      { at_ .connected 30 with inputs := ⟨30, 0b11110110, 0⟩ } =
    some (0x0000000801, true, 30, 44, some (.reportNotify ⟨0x01, 0x08, 0, 0, 0⟩)) := by decide +kernel
theorem test_poll_not_connected :
    after (fun t => (t.rptValid, t.tAct, t.trace.length, t.trace.take 4)) .poll
      { at_ .advertising 30 with inputs := ⟨30, 0x00, 0⟩ } =
    some (false, 0, 43, [.pinWrite .latch true, .delay 12, .pinWrite .latch false, .pinRead .data false]) := by
  decide +kernel

/-! ### TICK and BATT (sections 7 to 9) -/

/-- A state in which the battery deadline has not passed. -/
def quiet (c : ConnState) (now : Nat) : State := { at_ c now with tBatt := now }

/-- T2 and T3. -/
theorem test_tick_idle :
    after (fun t => (t.st, t.halted, t.trace)) .tick (quiet .idle 30000) = some (.idle, false, []) ∧
    after (fun t => (t.st, t.halted, t.trace)) .tick (quiet .idle 30001) =
      some (.stopped, true, [.notify 1 0b00, .powerOff]) := by decide
/-- T11: the wrap of time. -/
theorem test_tick_wrap :
    after (·.halted) .tick { quiet .idle 0x6531 with tAct := 0xFFFFF000 } = some true ∧
    after (·.halted) .tick { quiet .idle 0x6000 with tAct := 0xFFFFF000 } = some false := by decide
/-- T4. -/
theorem test_tick_readvertise :
    after (fun t => (t.st, t.tAdv, t.readv, t.led, t.trace)) .tick { quiet .idle 40000 with readv := true } =
      some (.advertising, 40000, false, false, [.advBegin, .notify 1 0b10]) := by decide
/-- T7. -/
theorem test_tick_advertising_timeout :
    after (fun t => (t.st, t.tAct, t.led, t.trace)) .tick { quiet .advertising 30001 with led := true } =
      some (.idle, 30001, false, [.advStop, .notify 1 0b01]) := by decide
/-- Section 8, at 10651. -/
theorem test_tick_blink :
    after (·.led) .tick { quiet .advertising 10651 with tAdv := 10651 } = some true ∧
    after (·.led) .tick { quiet .advertising 499 with tAdv := 499 } = some false := by decide
/-- B1, B5, B6, B8. -/
theorem test_tick_battery :
    after (fun t => (t.tBatt, t.trace)) .tick { at_ .connected 5000 with inputs := ⟨5000, 0, 80⟩ } = some (0, []) ∧
    after (fun t => (t.tBatt, t.battSent, t.trace)) .tick { at_ .connected 5001 with inputs := ⟨5001, 0, 140⟩ } =
      some (5001, 100, [.batteryNotify 100]) ∧
    after (fun t => (t.battSent, t.trace)) .tick { at_ .connected 5001 with inputs := ⟨5001, 0, -5⟩ } =
      some (0, [.batteryNotify 0]) ∧
    after (fun t => (t.tBatt, t.battSent, t.trace)) .tick { at_ .stopped 5001 with inputs := ⟨5001, 0, 50⟩ } =
      some (5001, 0xFF, []) := by decide
/-- B10, B12. -/
theorem test_batt :
    after (fun t => (t.battSent, t.trace)) .batt { at_ .connected 1 with battSent := 80, inputs := ⟨1, 0, 80⟩ } =
      some (80, [.batteryNotify 80]) ∧
    after (fun t => (t.battSent, t.trace)) .batt { at_ .idle 1 with battSent := 80, inputs := ⟨1, 0, 60⟩ } =
      some (80, []) := by decide

/-! ### The step -/

theorem test_step_start :
    stepped (fun t => (t.st, t.tAct, t.pending)) { State.reset with pending := [cmd 0x01, cmd 0x03] } =
      some (.idle, 7, [cmd 0x03]) := by decide
/-- Section 2: an illegal word from reset. -/
theorem test_step_illegal :
    stepped (fun t => (t.err, t.st, t.trace)) { State.reset with pending := [cmd 0x00] } =
      some (true, .stopped, []) := by decide
/-- F9. -/
theorem test_step_powered_off : stepped id { State.reset with halted := true, pending := [cmd 0x07] } = none := by decide
theorem test_fetch_word :
    stepped (fun t => (t.subValid, t.subId, t.pending)) (State.reset.withFetchWord 8 0x3A) = some (true, 3, []) := by
  decide

/-! ### Witnesses: states and operands that meet the hypotheses of the statements. Each names the statements it serves. -/

/-- A state of each kind satisfies the invariants. -/
theorem witness_invariants (c : ConnState) (now : Nat) : BlockInv (at_ c now) := by
  constructor <;> simp [at_, State.reset]

/-- DecodeFollowsOpcodeMap: SUB's clause, the clause of `arg = 0` at both ends of its opcodes, the illegal clause. -/
theorem witness_decode_clauses :
    BitVec.extractLsb' 0 4 (0xFA : CmdWord) = 0xA ∧
    (BitVec.extractLsb' 4 4 (0x01 : CmdWord) = 0 ∧ BitVec.extractLsb' 0 4 (0x01 : CmdWord) = 1) ∧
    (BitVec.extractLsb' 4 4 (0x09 : CmdWord) = 0 ∧ BitVec.extractLsb' 0 4 (0x09 : CmdWord) = 9) ∧
    ∀ w ∈ ([0x00, 0x0B, 0xFF, 0x11, 0xF9] : List CmdWord),
      w.extractLsb' 0 4 ≠ 0xA ∧
      ¬(1 ≤ (w.extractLsb' 0 4).toNat ∧ (w.extractLsb' 0 4).toNat ≤ 9 ∧ w.extractLsb' 4 4 = 0) := by decide

/-- DecodeEncodeAgree. -/
theorem witness_decode_encode : decode 0x3A = .ok (.sub 3) ∧ encode (.sub 3) = encode (.sub 3) := by decide

/-- StepRunsDecodedCommand. -/
theorem witness_step_decoded :
    ({ State.reset with pending := [cmd 0x01] } : State).pending = cmd 0x01 :: [] ∧
    decode (cmd 0x01).word = .ok .start := by decide

/-- IllegalWordSetsErr: R67's three cases, at the ends of their ranges, in a running state. -/
theorem witness_illegal_words :
    (∀ w ∈ ([0x00, 0xF0, 0x0B, 0xFF, 0x11, 0xF9] : List CmdWord),
      ({ State.reset with pending := [cmd w] } : State).halted = false ∧
      ({ State.reset with pending := [cmd w] } : State).pending = cmd w :: [] ∧
      ((cmd w).word.extractLsb' 0 4 = 0 ∨ 0xB ≤ ((cmd w).word.extractLsb' 0 4).toNat ∨
        ((cmd w).word.extractLsb' 0 4 ≠ 0xA ∧ (cmd w).word.extractLsb' 4 4 ≠ 0))) ∧
    stepped (·.err) { State.reset with err := true, pending := [cmd 0x01] } = some true := by decide

/-- StepWaitsWithoutCommand, RunningBlockAlwaysSteps. -/
theorem witness_running : (at_ .idle 0).halted = false ∧ (at_ .idle 0).pending = [] := by decide

/-- PoweredOffHasNoStep. -/
theorem witness_powered_off : ({ State.reset with halted := true } : State).halted = true := by decide

/-- StepKeepsInvariants. -/
theorem witness_step_keeps_invariants :
    ∃ t, BlockInv { at_ .stopped 7 with pending := [cmd 0x01] } ∧
      step { at_ .stopped 7 with pending := [cmd 0x01] } = .next t := by
  refine ⟨_, ?_, rfl⟩
  constructor <;> simp [at_, State.reset]

/-- StepKeepsMonotonicTime. -/
theorem witness_monotonic_time :
    ∃ t, MonotonicTime { at_ .stopped 5 with pending := [cmd 0x01] } ∧
      step { at_ .stopped 5 with pending := [cmd 0x01] } = .next t := by
  refine ⟨_, ?_, rfl⟩
  simp [MonotonicTime, at_, cmd]

/-- StartResult to SubResult, RefusedTransitionIsSilent, PollResult, BattResult: a running state in each connection state. -/
theorem witness_each_state : ∀ c, (at_ c 0).st = c ∧ (at_ c 0).halted = false := fun _ => ⟨rfl, rfl⟩

/-- SubResult, TransitionTable, RepeatedCommandIsNoOp, NotifyExactlyOncePerChange, StateEntryEffects, CommandFrames,
BatteryLevelsAreClamped, TransportCallsGuarded: `exec i s = .next t` for each command, with an entry to each of the four
states, and a battery level sent. -/
theorem witness_commands_complete :
    (∃ t, exec .start (at_ .stopped 3) = .next t ∧ t.st = .idle) ∧
    (∃ t, exec .stop (at_ .advertising 3) = .next t ∧ t.st = .stopped) ∧
    (∃ t, exec .advon (at_ .idle 3) = .next t ∧ t.st = .advertising) ∧
    (∃ t, exec .advoff (at_ .advertising 3) = .next t ∧ t.st = .idle) ∧
    (∃ t, exec .conn (at_ .stopped 3) = .next t ∧ t.st = .connected) ∧
    (∃ t, exec .disc (at_ .connected 3) = .next t ∧ t.st = .idle) ∧
    (∃ t, exec .poll (at_ .stopped 3) = .next t) ∧
    (∃ t, exec .tick (quiet .idle 30001) = .next t ∧ t.st = .stopped) ∧
    (∃ t, exec .batt (at_ .connected 3) = .next t ∧ .batteryNotify 0 ∈ newEvents (at_ .connected 3) t) ∧
    (∃ t, exec (.sub 2) (at_ .idle 3) = .next t) :=
  ⟨⟨_, rfl, rfl⟩, ⟨_, rfl, rfl⟩, ⟨_, rfl, rfl⟩, ⟨_, rfl, rfl⟩, ⟨_, rfl, rfl⟩, ⟨_, rfl, rfl⟩, ⟨_, rfl⟩, ⟨_, rfl, rfl⟩,
    ⟨_, rfl, by decide⟩, ⟨_, rfl⟩⟩

/-- SamplerInvertsLine: both levels of the line, and the ends of the index range. -/
theorem witness_sampler :
    (at_ .idle 0).inputs.data = 0xFF ∧
    ({ at_ .idle 0 with inputs := ⟨0, 0x00, 0⟩ } : State).inputs.data = 0x00 ∧ 0 < 8 ∧ 7 < 8 := by decide

/-- PollWithoutSend: not Connected, and Connected with the cached report unchanged. -/
theorem witness_poll_without_send :
    ((at_ .idle 0).halted = false ∧ (at_ .idle 0).st ≠ .connected) ∧
    (let s : State := { at_ .connected 0 with rptValid := true }
     s.halted = false ∧ s.rptValid = true ∧ s.rptCache = (reportOf s.params (~~~s.inputs.data)).pack) := by decide

/-- FirstReportOfConnection: a connect from Advertising, a TICK on the new connection, and its first POLL. -/
theorem witness_first_report :
    (∃ t, (at_ .advertising 3).st ≠ .connected ∧ exec .conn (at_ .advertising 3) = .next t) ∧
    (∃ t, (at_ .connected 3).rptValid = false ∧ exec .tick (at_ .connected 3) = .next t) ∧
    (∃ t, (at_ .connected 3).st = .connected ∧ (at_ .connected 3).rptValid = false ∧
      exec .poll (at_ .connected 3) = .next t) :=
  ⟨⟨_, by decide, rfl⟩, ⟨_, rfl, rfl⟩, ⟨_, rfl, rfl, rfl⟩⟩

/-- SameReportIsNoChange: Up+Down+Right, then all four directions (R119). -/
theorem witness_same_report :
    ∃ t u, ({ at_ .connected 50 with inputs := ⟨50, 0x4F, 0⟩ } : State).st = .connected ∧
      exec .poll { at_ .connected 50 with inputs := ⟨50, 0x4F, 0⟩ } = .next t ∧
      reportOf (at_ .connected 50).params (~~~0x0F) = reportOf (at_ .connected 50).params (~~~0x4F) ∧
      exec .poll { t with inputs := ⟨60, 0x0F, 0⟩ } = .next u := ⟨_, _, rfl, rfl, by decide, rfl⟩

/-- ChangeDetectorComparesEveryBit: a valid cache that holds a report, and an invalid one. -/
theorem witness_change_detector :
    let r : Report := ⟨1, 2, 3, 4, 5⟩
    let s : State := { State.reset with rptValid := true, rptCache := r.pack }
    (s.rptValid = true ∧ s.rptCache = r.pack) ∧ State.reset.rptValid = false := by decide

/-- ButtonMapping: the ends of the unused bits. -/
theorem witness_unused_bits : (2 ≤ 2 ∧ 2 ≤ 9) ∧ (2 ≤ 9 ∧ 9 ≤ 9) := by decide

/-- AxisPriority: each clause, on the vector of its directions. -/
theorem witness_axis_cases :
    let u (raw : Raw) := raw.getLsbD 4
    let d (raw : Raw) := raw.getLsbD 5
    let l (raw : Raw) := raw.getLsbD 6
    let r (raw : Raw) := raw.getLsbD 7
    r 0xC0 = true ∧ (r 0x40 = false ∧ l 0x40 = true) ∧ (r 0x00 = false ∧ l 0x00 = false) ∧
    (u 0x20 = false ∧ d 0x20 = true) ∧ (u 0x10 = true ∧ d 0x10 = false) ∧ (u 0x00 = false ∧ d 0x00 = false) ∧
    (u 0x30 = true ∧ d 0x30 = true) ∧ Params.default.yPriority = .down ∧
    ({ Params.default with yPriority := .up } : Params).yPriority = .up ∧
    (u 0xC0 = false ∧ d 0xC0 = false ∧ l 0xC0 = true) ∧ (l 0x30 = false ∧ r 0x30 = false) := by decide

/-- EncodeLayout, ReportReadInvertsEncode, ReportMatchesDescriptorLayout: the ends of the domain, the values outside it,
a report that reads back, and the first and last items of the layout. -/
theorem witness_encode_domain :
    encodable 8 127 (-127) = true ∧ encodable 0 (-127) 127 = true ∧
    decodeReport? ⟨0x01, 0x08, 0x03, 0x7F, 0x00⟩ = some ⟨0x801, 3, 127, 0⟩ ∧ 9 ≤ 9 ∧ (-128 : Int) = -128 ∧
    (LayoutItem.axisY, 32, 8) ∈ placeItems 0 descriptorLayout ∧
    (LayoutItem.button 1, 0, 1) ∈ placeItems 0 descriptorLayout := by decide

/-- EmittedReportsHaveZeroPadding, TransportCallsGuarded: a report that leaves the block, and padding that is not zero. -/
theorem witness_report_emitted :
    (∃ t, exec .poll (at_ .connected 3) = .next t ∧ .reportNotify ⟨0, 0, 0, 0, 0⟩ ∈ newEvents (at_ .connected 3) t) ∧
    BitVec.extractLsb' 4 4 (0x10 : Byte) ≠ 0 :=
  ⟨⟨_, rfl, by decide +kernel⟩, by decide⟩

/-- TransportCallsGuarded, PowerOffOnlyByIdleGuard, CollaboratorsUsedOnlyByTheirCommands. -/
theorem witness_calls_emitted :
    (∃ t, exec .advon (at_ .idle 3) = .next t ∧ .advBegin ∈ newEvents (at_ .idle 3) t) ∧
    (∃ t, exec .stop (at_ .advertising 3) = .next t ∧ .advStop ∈ newEvents (at_ .advertising 3) t) ∧
    (∃ t, exec .tick (quiet .idle 30001) = .next t ∧ .powerOff ∈ newEvents (quiet .idle 30001) t) ∧
    (∃ t, exec .poll (at_ .idle 3) = .next t ∧ .pinWrite .latch true ∈ newEvents (at_ .idle 3) t) :=
  ⟨⟨_, rfl, by decide⟩, ⟨_, rfl, by decide⟩, ⟨_, rfl, by decide⟩, ⟨_, rfl, by decide +kernel⟩⟩

/-- TickIdlePowerOff, at the first elapsed time that fires. -/
theorem witness_tick_power_off :
    let s := quiet .idle 30001
    s.halted = false ∧ s.st = .idle ∧ s.readv = false ∧ s.params.idleTimeout < s.elapsed s.tAct := by decide

/-- TickReadvertises. -/
theorem witness_tick_readvertise :
    let s : State := { quiet .idle 40000 with readv := true }
    s.halted = false ∧ s.st = .idle ∧ s.readv = true := by decide

/-- TickAdvertisingTimeout, at the first elapsed time that fires. -/
theorem witness_tick_advertising_timeout :
    let s := quiet .advertising 30001
    s.halted = false ∧ s.st = .advertising ∧ s.params.advTimeout < s.elapsed s.tAdv := by decide

/-- TickBlinks, at the last elapsed time before the timeout. -/
theorem witness_tick_blink :
    let s := quiet .advertising 30000
    s.halted = false ∧ s.st = .advertising ∧ s.elapsed s.tAdv ≤ s.params.advTimeout ∧ 0 < s.params.blinkHalf := by decide

/-- TickBatteryOnly: each of its three cases, the last at the deadline. -/
theorem witness_tick_battery_only :
    ((quiet .stopped 1).halted = false ∧ (quiet .stopped 1).st = .stopped) ∧
    ((quiet .connected 1).halted = false ∧ (quiet .connected 1).st = .connected) ∧
    (let s := quiet .idle 30000
     s.halted = false ∧ s.st = .idle ∧ s.readv = false ∧ s.elapsed s.tAct ≤ s.params.idleTimeout) := by decide

/-- DeadlinesAreStrict, TransitionTable, TickActsAtMostOnce: TICK on both sides of each deadline. -/
theorem witness_deadlines :
    (∃ t, exec .tick (quiet .idle 30000) = .next t ∧ t.halted = false) ∧
    (∃ t, exec .tick (quiet .idle 30001) = .next t ∧ t.halted = true) ∧
    (∃ t, exec .tick (quiet .advertising 30000) = .next t ∧ t.st = .advertising) ∧
    (∃ t, exec .tick (quiet .advertising 30001) = .next t ∧ t.st = .idle) ∧
    (∃ t, exec .tick (at_ .connected 5000) = .next t ∧ t.halted = false ∧
      (at_ .connected 5000).elapsed (at_ .connected 5000).tBatt = (at_ .connected 5000).params.battPeriod) ∧
    (∃ t, exec .tick (at_ .connected 5001) = .next t ∧ t.halted = false ∧
      (at_ .connected 5001).elapsed (at_ .connected 5001).tBatt = (at_ .connected 5001).params.battPeriod + 1) :=
  ⟨⟨_, rfl, rfl⟩, ⟨_, rfl, rfl⟩, ⟨_, rfl, rfl⟩, ⟨_, rfl, rfl⟩, ⟨_, rfl, rfl, by decide⟩, ⟨_, rfl, rfl, by decide⟩⟩

/-- IndicatorWrittenOnlyByTick: both of its writing places. -/
theorem witness_indicator_changes :
    (∃ t, exec .tick (quiet .advertising 500) = .next t ∧ t.led ≠ (quiet .advertising 500).led) ∧
    (∃ t, exec .tick { quiet .advertising 30001 with led := true } = .next t ∧ t.led ≠ true) :=
  ⟨⟨_, rfl, by decide⟩, ⟨_, rfl, by decide⟩⟩

/-- ElapsedWrapsAround: a timestamp and a distance below the wrap with `now` after it, and a `now` below a timestamp. -/
theorem witness_elapsed :
    let s := at_ .idle 0x6531
    (0xFFFFF000 < 2 ^ s.params.timeW ∧ 30001 < 2 ^ s.params.timeW ∧
      s.inputs.now % 2 ^ s.params.timeW = (0xFFFFF000 + 30001) % 2 ^ s.params.timeW) ∧
    (100 < 2 ^ s.params.timeW ∧ 0 < 10 ∧ (at_ .idle 90).inputs.now + 10 = 100) := by decide

/-- BlinkTogglesEachHalfPeriod: half a period apart, and within one half-period. -/
theorem witness_blink :
    ((at_ .idle 1000).params = (at_ .idle 500).params ∧ 0 < (at_ .idle 500).params.blinkHalf) ∧
    (at_ .idle 1000).now = (at_ .idle 500).now + (at_ .idle 500).params.blinkHalf ∧
    (at_ .idle 999).now / (at_ .idle 500).params.blinkHalf = (at_ .idle 500).now / (at_ .idle 500).params.blinkHalf := by
  decide

end Sys2Proof.Tests
end

-- The family of spec/10_state.md: the frame of every command, the invariants of R42, and the indicator.
section

namespace Sys2Proof.Machine

/-! ### What a completed command did: its rule, on a running block -/

section completion
variable {s t : State}

theorem exec_start_next_iff :
    exec .start s = .next t ↔ s.halted = false ∧ (if s.st = .stopped then s.setState .idle else s) = t := by
  rw [exec, execStart, running_next_iff]

theorem exec_stop_next_iff :
    exec .stop s = .next t ↔
      s.halted = false ∧ (if s.st = .advertising then s.emit .advStop else s).setState .stopped = t := by
  rw [exec, execStop, running_next_iff]

theorem exec_advon_next_iff :
    exec .advon s = .next t ↔
      s.halted = false ∧ (if s.st = .idle then (s.emit .advBegin).setState .advertising else s) = t := by
  rw [exec, execAdvon, running_next_iff]

theorem exec_advoff_next_iff :
    exec .advoff s = .next t ↔
      s.halted = false ∧ (if s.st = .advertising then (s.emit .advStop).setState .idle else s) = t := by
  rw [exec, execAdvoff, running_next_iff]

theorem exec_conn_next_iff : exec .conn s = .next t ↔ s.halted = false ∧ s.setState .connected = t := by
  rw [exec, execConn, running_next_iff]

theorem exec_disc_next_iff :
    exec .disc s = .next t ↔ s.halted = false ∧ { s.setState .idle with readv := true } = t := by
  rw [exec, execDisc, running_next_iff]

theorem exec_poll_next_iff :
    exec .poll s = .next t ↔
      s.halted = false ∧
        (if (sample s).2.guardSend ∧ (sample s).2.changed (reportOf (sample s).2.params (sample s).1) then
          (sample s).2.sendReport (reportOf (sample s).2.params (sample s).1)
        else (sample s).2) = t := by
  rw [exec, execPoll, running_next_iff]

theorem exec_tick_next_iff :
    exec .tick s = .next t ↔
      s.halted = false ∧
        (if (tickReadvertise s).idleDue then powerOff (tickReadvertise s)
        else tickBattery (tickAdvertising (tickReadvertise s))) = t := by
  rw [exec, execTick, running_next_iff]

theorem exec_batt_next_iff :
    exec .batt s = .next t ↔ s.halted = false ∧ (if s.guardSend then s.sendLevel s.battSample else s) = t := by
  rw [exec, execBatt, running_next_iff]

theorem exec_sub_next_iff {sid : Tag} :
    exec (.sub sid) s = .next t ↔ s.halted = false ∧ { s with subValid := true, subId := sid } = t := by
  rw [exec, execSub, running_next_iff]

end completion

theorem exec_of_halted {s : State} (h : s.halted = true) (i : Instr) : exec i s = .fault .poweredOff := by
  have running_fault : ∀ body : State → State, s.running body = .fault .poweredOff := fun _ => if_pos h
  cases i with
  | start => rw [exec, execStart, running_fault]
  | stop => rw [exec, execStop, running_fault]
  | advon => rw [exec, execAdvon, running_fault]
  | advoff => rw [exec, execAdvoff, running_fault]
  | conn => rw [exec, execConn, running_fault]
  | disc => rw [exec, execDisc, running_fault]
  | poll => rw [exec, execPoll, running_fault]
  | tick => rw [exec, execTick, running_fault]
  | batt => rw [exec, execBatt, running_fault]
  | sub sid => rw [exec, execSub, running_fault]

@[simp] theorem setState_st (s : State) (c : ConnState) : (s.setState c).st = c := by
  by_cases hc : c = s.st
  · rw [setState_self hc, hc]
  · rw [setState_of_ne hc]

/-! ### Frames: what an operation leaves unchanged

`Frame rs s t` is `ChangesOnly` with its events left open, so that frames of consecutive operations compose. -/

/-- From `s` to `t` only registers in `rs` changed, and the trace only grew. -/
def Frame (rs : List RegName) (s t : State) : Prop := ∃ evs, ChangesOnly rs evs s t

/-- R69: the four state codes are distinct. -/
theorem code_injective : Function.Injective ConnState.code := by
  intro c d
  cases c <;> cases d <;> decide

theorem bool_toNat_injective : Function.Injective Bool.toNat :=
  Function.LeftInverse.injective Bool.ofNat_toNat

namespace Frame

variable {rs rs' : List RegName} {s t u : State}

theorem refl (rs : List RegName) (s : State) : Frame rs s s :=
  ⟨[], fun _ _ => rfl, (List.append_nil _).symm, rfl, rfl, rfl⟩

theorem mono (h : Frame rs s t) (hsub : rs ⊆ rs') : Frame rs' s t := by
  obtain ⟨evs, hread, hrest⟩ := h
  exact ⟨evs, fun r hr => hread r fun hmem => hr (hsub hmem), hrest⟩

/-- Two operations in a row may write what either of them may write. -/
theorem trans (h₁ : Frame rs s t) (h₂ : Frame rs' t u) : Frame (rs ++ rs') s u := by
  obtain ⟨evs₁, hread₁, htrace₁, hin₁, hpend₁, hpar₁⟩ := h₁
  obtain ⟨evs₂, hread₂, htrace₂, hin₂, hpend₂, hpar₂⟩ := h₂
  refine ⟨evs₁ ++ evs₂, fun r hr => ?_, ?_, hin₂.trans hin₁, hpend₂.trans hpend₁, hpar₂.trans hpar₁⟩
  · obtain ⟨hr₁, hr₂⟩ : r ∉ rs ∧ r ∉ rs' := by simpa using hr
    exact (hread₂ r hr₂).trans (hread₁ r hr₁)
  · rw [htrace₂, htrace₁, List.append_assoc]

/-- The events a frame leaves open are the new events. -/
theorem changesOnly (h : Frame rs s t) : ChangesOnly rs (newEvents s t) s t := by
  obtain ⟨evs, hread, htrace, hrest⟩ := h
  have hnew : newEvents s t = evs := by simp [newEvents, htrace]
  exact ⟨hread, hnew ▸ htrace, hrest⟩

theorem st_eq (h : Frame rs s t) (hr : .st ∉ rs) : t.st = s.st := by
  obtain ⟨_, hread, _⟩ := h
  exact code_injective (BitVec.eq_of_toNat_eq (hread .st hr))

theorem halted_eq (h : Frame rs s t) (hr : .halted ∉ rs) : t.halted = s.halted := by
  obtain ⟨_, hread, _⟩ := h
  exact bool_toNat_injective (hread .halted hr)

theorem led_eq (h : Frame rs s t) (hr : .led ∉ rs) : t.led = s.led := by
  obtain ⟨_, hread, _⟩ := h
  exact bool_toNat_injective (hread .led hr)

/-- The blink is a function of the time and the parameters, which no frame lets change. -/
theorem blink_eq (h : Frame rs s t) : t.blink = s.blink := by
  obtain ⟨_, _, _, hin, _, hpar⟩ := h
  have hnow : t.now = s.now := by simp only [State.now, hin, hpar]
  simp only [State.blink, hnow]
  rw [hpar]

end Frame

/-! ### The frame of each shared operation -/

/-- The registers that entering a state writes (R102). -/
def entryWrites : ConnState → List RegName
  | .stopped => [.st, .readv]
  | .idle => [.st, .tAct]
  | .advertising => [.st, .tAdv, .readv]
  | .connected => [.st, .rptValid, .readv]

section operations
variable (s : State)

theorem emit_frame (e : Event) : Frame [] s (s.emit e) :=
  ⟨[e], fun r _ => by cases r <;> rfl, rfl, rfl, rfl, rfl⟩

theorem setReadv_frame (b : Bool) : Frame [.readv] s { s with readv := b } :=
  ⟨[], fun r hr => by cases r <;> simp_all [State.read], (List.append_nil _).symm, rfl, rfl, rfl⟩

theorem setLed_frame (b : Bool) : Frame [.led] s { s with led := b } :=
  ⟨[], fun r hr => by cases r <;> simp_all [State.read], (List.append_nil _).symm, rfl, rfl, rfl⟩

theorem setHalted_frame (b : Bool) : Frame [.halted] s { s with halted := b } :=
  ⟨[], fun r hr => by cases r <;> simp_all [State.read], (List.append_nil _).symm, rfl, rfl, rfl⟩

theorem setTBatt_frame (n : Nat) : Frame [.tBatt] s { s with tBatt := n } :=
  ⟨[], fun r hr => by cases r <;> simp_all [State.read], (List.append_nil _).symm, rfl, rfl, rfl⟩

theorem register_frame (sid : Tag) : Frame [.subValid, .subId] s { s with subValid := true, subId := sid } :=
  ⟨[], fun r hr => by cases r <;> simp_all [State.read], (List.append_nil _).symm, rfl, rfl, rfl⟩

theorem sendReport_frame (r : Report) : Frame [.rptCache, .rptValid, .tAct] s (s.sendReport r) :=
  ⟨[.reportNotify r], fun r hr => by cases r <;> simp_all [State.read], rfl, rfl, rfl, rfl⟩

theorem sendLevel_frame (l : Nat) : Frame [.battSent] s (s.sendLevel l) :=
  ⟨[.batteryNotify (BitVec.ofNat 8 l)], fun r hr => by cases r <;> simp_all [State.read], rfl, rfl, rfl, rfl⟩

theorem sample_frame : Frame [.pinLatch, .pinClock] s (sample s).2 := by
  rw [sample_eq]
  exact ⟨_, fun r hr => by cases r <;> simp_all [State.read], rfl, rfl, rfl, rfl⟩

theorem setState_frame (c : ConnState) : Frame (entryWrites c) s (s.setState c) := by
  by_cases hc : c = s.st
  · rw [setState_self hc]
    exact Frame.refl _ s
  · rw [setState_of_ne hc]
    refine ⟨_, fun r hr => ?_, rfl, rfl, rfl, rfl⟩
    cases c <;> cases r <;> simp_all [State.read, entryWrites]

end operations

/-! ### The frame of each check of TICK -/

section checks
variable (s : State)

theorem tickReadvertise_frame : Frame [.st, .tAdv, .readv] s (tickReadvertise s) := by
  unfold tickReadvertise
  split
  · exact (emit_frame s .advBegin).trans (setState_frame _ .advertising)
  · exact Frame.refl _ s

theorem powerOff_frame : Frame [.st, .readv, .halted] s (powerOff s) :=
  ((setState_frame s .stopped).trans (emit_frame _ .powerOff)).trans (setHalted_frame _ true)

theorem tickAdvertising_frame : Frame [.st, .tAct, .led] s (tickAdvertising s) := by
  unfold tickAdvertising
  split
  · split
    · exact ((emit_frame s .advStop).trans (setState_frame _ .idle)).trans (setLed_frame _ false)
    · exact (setLed_frame s s.blink).mono (by decide)
  · exact Frame.refl _ s

theorem tickBattery_frame : Frame [.tBatt, .battSent] s (tickBattery s) := by
  have deadline := setTBatt_frame s s.now
  unfold tickBattery
  split
  · dsimp only
    split
    · exact deadline.trans (sendLevel_frame _ _)
    · exact deadline.mono (by decide)
  · exact Frame.refl _ s

end checks

/-! ### The frame of each command -/

theorem exec_frame {i : Instr} {s t : State} (h : exec i s = .next t) : Frame (writes i) s t := by
  cases i with
  | start =>
    obtain ⟨-, rfl⟩ := exec_start_next_iff.mp h
    split
    · exact setState_frame s .idle
    · exact Frame.refl _ s
  | stop =>
    obtain ⟨-, rfl⟩ := exec_stop_next_iff.mp h
    split
    · exact (emit_frame s .advStop).trans (setState_frame _ .stopped)
    · exact setState_frame s .stopped
  | advon =>
    obtain ⟨-, rfl⟩ := exec_advon_next_iff.mp h
    split
    · exact (emit_frame s .advBegin).trans (setState_frame _ .advertising)
    · exact Frame.refl _ s
  | advoff =>
    obtain ⟨-, rfl⟩ := exec_advoff_next_iff.mp h
    split
    · exact (emit_frame s .advStop).trans (setState_frame _ .idle)
    · exact Frame.refl _ s
  | conn =>
    obtain ⟨-, rfl⟩ := exec_conn_next_iff.mp h
    exact setState_frame s .connected
  | disc =>
    obtain ⟨-, rfl⟩ := exec_disc_next_iff.mp h
    exact (setState_frame s .idle).trans (setReadv_frame _ true)
  | poll =>
    obtain ⟨-, rfl⟩ := exec_poll_next_iff.mp h
    split
    · exact (sample_frame s).trans (sendReport_frame _ _)
    · exact (sample_frame s).mono (by decide)
  | tick =>
    obtain ⟨-, rfl⟩ := exec_tick_next_iff.mp h
    split
    · exact ((tickReadvertise_frame s).trans (powerOff_frame _)).mono (by decide)
    · exact (((tickReadvertise_frame s).trans (tickAdvertising_frame _)).trans (tickBattery_frame _)).mono (by decide)
  | batt =>
    obtain ⟨-, rfl⟩ := exec_batt_next_iff.mp h
    split
    · exact sendLevel_frame s _
    · exact Frame.refl _ s
  | sub sid =>
    obtain ⟨-, rfl⟩ := exec_sub_next_iff.mp h
    exact register_frame s sid

/-- Settles O28: every command is a composition of operations with known frames (`exec_frame`). -/
theorem commandFrames : Obligations.CommandFrames :=
  fun _ _ _ h => (exec_frame h).changesOnly

/-! ### The indicator (R27) -/

/-- An advertising phase that TICK itself has just begun is not timed out in the same TICK: its elapsed time is 0. -/
theorem tickReadvertise_eq_self_of_advTimeout {s : State}
    (h : (tickReadvertise s).params.advTimeout < (tickReadvertise s).elapsed (tickReadvertise s).tAdv) :
    tickReadvertise s = s := by
  rw [tickReadvertise_eq] at h ⊢
  split at h
  · exact absurd h (by simp [State.elapsed, State.now, subMod])
  · next hdue => exact if_neg hdue

/-- The two writers of `led` within the checks of TICK after the re-advertise. -/
theorem tickAdvertising_led_cases {s : State} (h : (tickAdvertising s).led ≠ s.led) :
    s.st = .advertising ∧
      (((tickAdvertising s).st = .advertising ∧ (tickAdvertising s).led = s.blink) ∨
        ((tickAdvertising s).st = .idle ∧ (tickAdvertising s).led = false ∧
          s.params.advTimeout < s.elapsed s.tAdv)) := by
  rw [tickAdvertising_eq] at h ⊢
  by_cases hst : s.st = .advertising
  · by_cases hdue : s.params.advTimeout < s.elapsed s.tAdv
    · simp [hst, hdue]
    · simp [hst, hdue]
  · simp [hst] at h

theorem exec_tick_led_cases {s t : State} (h : exec .tick s = .next t) (hled : t.led ≠ s.led) :
    (t.st = .advertising ∧ t.led = s.blink) ∨
      (s.st = .advertising ∧ t.st = .idle ∧ t.led = false ∧ s.params.advTimeout < s.elapsed s.tAdv) := by
  obtain ⟨-, rfl⟩ := exec_tick_next_iff.mp h
  have hreadv := tickReadvertise_frame s
  split at hled
  · have hoff := hreadv.trans (powerOff_frame _)
    exact absurd (hoff.led_eq (by decide)) hled
  · next hnotDue =>
    rw [if_neg hnotDue]
    have hbatt := tickBattery_frame (tickAdvertising (tickReadvertise s))
    rw [hbatt.led_eq (by decide), ← hreadv.led_eq (by decide)] at hled
    rw [hbatt.led_eq (by decide), hbatt.st_eq (by decide)]
    obtain ⟨hst, ⟨hadv, hblink⟩ | ⟨hidle, hoff, hdue⟩⟩ := tickAdvertising_led_cases hled
    · exact .inl ⟨hadv, hblink.trans hreadv.blink_eq⟩
    · have hself := tickReadvertise_eq_self_of_advTimeout hdue
      rw [hself] at hst hidle hoff hdue ⊢
      exact .inr ⟨hst, hidle, hoff, hdue⟩

/-- Settles O57: by its frame no other command writes `led`, and in TICK only the advertising check does. -/
theorem indicatorWrittenOnlyByTick : Obligations.IndicatorWrittenOnlyByTick := by
  intro i s t h hled
  have htick : i = .tick := by
    by_contra hne
    have hr : .led ∉ writes i := by cases i <;> simp_all [writes]
    exact hled ((exec_frame h).led_eq hr)
  subst htick
  exact ⟨rfl, exec_tick_led_cases h hled⟩

/-! ### The invariants (R42) -/

namespace BlockInv

variable {s : State}

theorem emit (h : BlockInv s) (e : Event) : BlockInv (s.emit e) := { h with }

theorem accept (h : BlockInv s) (a : Arrival) (rest : List Arrival) : BlockInv (s.accept a rest) := { h with }

theorem illegalWord (h : BlockInv s) (w : CmdWord) : BlockInv (s.illegalWord w) := { h with }

theorem register (h : BlockInv s) (sid : Tag) : BlockInv { s with subValid := true, subId := sid } := { h with }

theorem setLed (h : BlockInv s) (b : Bool) : BlockInv { s with led := b } := { h with }

theorem setReadv (h : BlockInv s) (hst : s.st = .idle) : BlockInv { s with readv := true } :=
  { h with readvIdle := fun _ => hst }

theorem setHalted (h : BlockInv s) (hst : s.st = .stopped) : BlockInv { s with halted := true } :=
  { h with haltedStopped := fun _ => hst }

theorem setTBatt (h : BlockInv s) : BlockInv { s with tBatt := s.now } :=
  { h with tBattWidth := now_lt s }

/-- The samples are clamped to 100 (R36), so the byte holds the level itself. -/
theorem sendSample (h : BlockInv s) : BlockInv (s.sendLevel s.battSample) :=
  { h with
    battLevel := .inl <| by
      have hle : s.battSample ≤ 100 := clampLevel_le s.inputs.batt
      rw [sendLevel_battSent, BitVec.toNat_ofNat]
      omega }

theorem sendReport (h : BlockInv s) (raw : Raw) : BlockInv (s.sendReport (reportOf s.params raw)) :=
  { h with
    cacheProducible := fun _ => ⟨raw, rfl⟩
    tActWidth := now_lt s }

/-- The sampler leaves both pins low (R85). -/
theorem sample (h : BlockInv s) : BlockInv (sample s).2 := by
  rw [sample_eq]
  exact { h with latchLow := rfl, clockLow := rfl }

/-- Only a running block changes its state, so no halted block leaves Stopped. -/
theorem setState (h : BlockInv s) (hrun : s.halted = false) (c : ConnState) : BlockInv (s.setState c) := by
  by_cases hc : c = s.st
  · rwa [setState_self hc]
  · rw [setState_of_ne hc]
    exact
      { h with
        cacheProducible := fun hv => h.cacheProducible (by split at hv <;> simp_all)
        readvIdle := fun hr => by split at hr <;> simp_all
        haltedStopped := fun hh => absurd hh (by simp [hrun])
        tActWidth := by dsimp only; split; exacts [now_lt s, h.tActWidth]
        tAdvWidth := by dsimp only; split; exacts [now_lt s, h.tAdvWidth] }

theorem tickReadvertise (h : BlockInv s) (hrun : s.halted = false) : BlockInv (tickReadvertise s) := by
  unfold Machine.tickReadvertise
  split
  · exact (h.emit .advBegin).setState hrun .advertising
  · exact h

theorem powerOff (h : BlockInv s) (hrun : s.halted = false) : BlockInv (powerOff s) :=
  ((h.setState hrun .stopped).emit .powerOff).setHalted (setState_st s .stopped)

theorem tickAdvertising (h : BlockInv s) (hrun : s.halted = false) : BlockInv (tickAdvertising s) := by
  unfold Machine.tickAdvertising
  split
  · split
    · exact ((h.emit .advStop).setState hrun .idle).setLed false
    · exact h.setLed s.blink
  · exact h

theorem tickBattery (h : BlockInv s) : BlockInv (tickBattery s) := by
  unfold Machine.tickBattery
  split
  · dsimp only
    split
    · exact h.setTBatt.sendSample
    · exact h.setTBatt
  · exact h

/-- The invariants are kept by every command. -/
theorem exec {i : Instr} {t : State} (h : BlockInv s) (hexec : exec i s = .next t) : BlockInv t := by
  cases i with
  | start =>
    obtain ⟨hrun, rfl⟩ := exec_start_next_iff.mp hexec
    split
    · exact h.setState hrun .idle
    · exact h
  | stop =>
    obtain ⟨hrun, rfl⟩ := exec_stop_next_iff.mp hexec
    split
    · exact (h.emit .advStop).setState hrun .stopped
    · exact h.setState hrun .stopped
  | advon =>
    obtain ⟨hrun, rfl⟩ := exec_advon_next_iff.mp hexec
    split
    · exact (h.emit .advBegin).setState hrun .advertising
    · exact h
  | advoff =>
    obtain ⟨hrun, rfl⟩ := exec_advoff_next_iff.mp hexec
    split
    · exact (h.emit .advStop).setState hrun .idle
    · exact h
  | conn =>
    obtain ⟨hrun, rfl⟩ := exec_conn_next_iff.mp hexec
    exact h.setState hrun .connected
  | disc =>
    obtain ⟨hrun, rfl⟩ := exec_disc_next_iff.mp hexec
    exact (h.setState hrun .idle).setReadv (setState_st s .idle)
  | poll =>
    obtain ⟨-, rfl⟩ := exec_poll_next_iff.mp hexec
    split
    · exact h.sample.sendReport _
    · exact h.sample
  | tick =>
    obtain ⟨hrun, rfl⟩ := exec_tick_next_iff.mp hexec
    have hrun' : (Machine.tickReadvertise s).halted = false :=
      ((tickReadvertise_frame s).halted_eq (by decide)).trans hrun
    have hreadv := h.tickReadvertise hrun
    split
    · exact hreadv.powerOff hrun'
    · exact (hreadv.tickAdvertising hrun').tickBattery
  | batt =>
    obtain ⟨-, rfl⟩ := exec_batt_next_iff.mp hexec
    split
    · exact h.sendSample
    · exact h
  | sub sid =>
    obtain ⟨-, rfl⟩ := exec_sub_next_iff.mp hexec
    exact h.register sid

end BlockInv

/-- Settles O12: waiting changes nothing, taking a command and the exception touch no register of R42, and every command
keeps the invariants (`BlockInv.exec`). -/
theorem stepKeepsInvariants : Obligations.StepKeepsInvariants := by
  intro s t hinv hstep
  obtain ⟨-, ⟨-, rfl⟩ | ⟨a, rest, -, ⟨i, -, hexec⟩ | ⟨r, -, rfl⟩⟩⟩ := step_next_cases hstep
  · exact hinv
  · exact (hinv.accept a rest).exec hexec
  · exact (hinv.accept a rest).illegalWord a.word

/-- Settles O13: `batt_sent` starts at `0xFF`, the timestamps at 0, and every flag and pin at 0 (R156). -/
theorem resetSatisfiesInvariants : Obligations.ResetSatisfiesInvariants := fun _ _ _ =>
  { battLevel := .inr rfl
    cacheProducible := fun hv => Bool.noConfusion hv
    readvIdle := fun hr => Bool.noConfusion hr
    haltedStopped := fun _ => rfl
    latchLow := rfl
    clockLow := rfl
    tActWidth := Nat.two_pow_pos _
    tAdvWidth := Nat.two_pow_pos _
    tBattWidth := Nat.two_pow_pos _ }

/-! ### The step -/

/-- Settles O6: a running block fetches and runs the command; a halted one gives the fault that the command gives. -/
theorem stepRunsDecodedCommand : Obligations.StepRunsDecodedCommand := by
  intro s a rest i hpend hdec
  by_cases hh : s.halted = true
  · exact (if_pos hh).trans (exec_of_halted (s := s.accept a rest) hh i).symm
  · simp [step, hh, State.fetch, hpend, hdec, State.accept]

end Sys2Proof.Machine
end

-- The family of spec/30_encoding.md: the decoder and its encoder, the text of a line, the illegal word, the report's
-- bytes and its reader, the descriptor's layout, and what leaves the block.
section

namespace Sys2Proof

/-! ### The two fields of a command word (R64) -/

@[simp] theorem Cmd8.ofWord_toWord (c : Cmd8) : Cmd8.ofWord c.toWord = c := by
  obtain ⟨op, arg⟩ := c
  have hop : (arg ++ op).extractLsb' 0 4 = op := BitVec.extractLsb'_append_eq_right
  have harg : (arg ++ op).extractLsb' 4 4 = arg := BitVec.extractLsb'_append_eq_left
  simp only [Cmd8.ofWord, Cmd8.toWord, hop, harg]

@[simp] theorem Cmd8.toWord_ofWord (w : CmdWord) : (Cmd8.ofWord w).toWord = w := by
  have hjoin : w.extractLsb' 4 4 ++ w.extractLsb' 0 4 = w.extractLsb' 0 (4 + 4) :=
    BitVec.extractLsb'_append_extractLsb'_eq_extractLsb' rfl
  exact hjoin.trans BitVec.extractLsb'_eq_self

theorem ofWord_encode (i : Instr) : Cmd8.ofWord (encode i) = ⟨i.opcode, i.argField⟩ :=
  Cmd8.ofWord_toWord _

/-! ### The decoder inverts the encoder (R65, R66) -/

/-- R67 read the other way: what its three cases leave over. -/
theorem Cmd8.illegal?_eq_none_iff {c : Cmd8} :
    c.illegal? = none ↔ c.op ≠ 0x0 ∧ ¬ 0xB ≤ c.op ∧ (c.op = 0xA ∨ c.arg = 0) := by
  unfold Cmd8.illegal?
  split_ifs with hzero hreserved harg
  · exact iff_of_false nofun fun ⟨hne, _, _⟩ => hne hzero
  · exact iff_of_false nofun fun ⟨_, hlt, _⟩ => hlt hreserved
  · exact iff_of_false nofun fun ⟨_, _, hor⟩ => hor.elim harg.1 harg.2
  · exact iff_of_true rfl ⟨hzero, hreserved, by tauto⟩

/-- The opcode map read in both directions: the fields that name a command are the fields of that command. -/
theorem Cmd8.toInstr_eq_ok_iff {c : Cmd8} {i : Instr} : c.toInstr = .ok i ↔ c = ⟨i.opcode, i.argField⟩ := by
  obtain ⟨op, arg⟩ := c
  constructor
  · intro h
    unfold toInstr at h
    split at h
    · cases h
    · next hlegal =>
      obtain ⟨-, -, harg⟩ := illegal?_eq_none_iff.mp hlegal
      dsimp only at h harg
      split at h <;> cases h <;> simp_all [Instr.opcode, Instr.argField]
  · intro h
    cases h
    cases i <;> rfl

theorem decode_eq_ok_iff {w : CmdWord} {i : Instr} : decode w = .ok i ↔ encode i = w := by
  rw [decode, Cmd8.toInstr_eq_ok_iff]
  constructor
  · intro h
    rw [encode, ← h, Cmd8.toWord_ofWord]
  · rintro rfl
    exact ofWord_encode i

theorem decode_encode (i : Instr) : decode (encode i) = .ok i :=
  decode_eq_ok_iff.mpr rfl

theorem encode_injective : Function.Injective encode := by
  intro i j h
  have hok : decode (encode i) = .ok j := h ▸ decode_encode j
  exact Except.ok.inj ((decode_encode i).symm.trans hok)

/-- Settles O3: the words that decode to a command are its encoding and no other (`decode_eq_ok_iff`). -/
theorem decodeEncodeAgree : Obligations.DecodeEncodeAgree :=
  ⟨decode_encode, fun _ _ h => decode_eq_ok_iff.mp h, fun _ _ h => encode_injective h⟩

/-! ### Words given by their fields (R66, R67) -/

theorem decode_of_fields {w : CmdWord} {i : Instr} (hop : w.extractLsb' 0 4 = i.opcode)
    (harg : w.extractLsb' 4 4 = i.argField) : decode w = .ok i := by
  rw [decode, Cmd8.toInstr_eq_ok_iff, Cmd8.ofWord, hop, harg]

theorem Cmd8.toInstr_of_illegal {c : Cmd8} {r : IllegalReason} (h : c.illegal? = some r) : c.toInstr = .error r := by
  simp [toInstr, h]

/-- R67's three cases, each an error. -/
theorem exists_decode_eq_error {w : CmdWord}
    (h : w.extractLsb' 0 4 = 0 ∨ 0xB ≤ (w.extractLsb' 0 4).toNat ∨
      (w.extractLsb' 0 4 ≠ 0xA ∧ w.extractLsb' 4 4 ≠ 0)) :
    ∃ r, decode w = .error r := by
  have hillegal : (Cmd8.ofWord w).illegal? ≠ none := by
    rw [Ne, Cmd8.illegal?_eq_none_iff]
    rintro ⟨hzero, hreserved, harg⟩
    obtain h | h | ⟨hop, harg'⟩ := h
    · exact hzero h
    · exact hreserved h
    · exact harg.elim hop harg'
  obtain ⟨r, hr⟩ := Option.ne_none_iff_exists'.mp hillegal
  exact ⟨r, Cmd8.toInstr_of_illegal hr⟩

/-- Settles O1: the first eleven words are the encodings of their commands; the last four are evaluated. -/
theorem decodeWrittenWords : Obligations.DecodeWrittenWords := by
  refine ⟨decode_encode .start, decode_encode .stop, decode_encode .advon, decode_encode .advoff, decode_encode .conn,
    decode_encode .disc, decode_encode .poll, decode_encode .tick, decode_encode .batt, decode_encode (.sub 3),
    decode_encode (.sub 15), ?_⟩
  decide

theorem length_legal_words : ((List.range 256).filter fun n => (decodeTableWord 8 n).isSome).length = 25 := by
  decide

/-- Settles O2: each clause gives the fields of a command or a case of R67; the illegal words are the rest of the
256. -/
theorem decodeFollowsOpcodeMap : Obligations.DecodeFollowsOpcodeMap := by
  refine ⟨fun w => ⟨fun hop => decode_of_fields hop rfl, fun harg => ?_, fun hsub hmap => ?_⟩, length_legal_words, ?_⟩
  · refine ⟨?_, ?_, ?_, ?_, ?_, ?_, ?_, ?_, ?_⟩ <;> exact (decode_of_fields · harg)
  · refine exists_decode_eq_error ?_
    by_cases harg : w.extractLsb' 4 4 = 0
    · bv_omega
    · exact .inr (.inr ⟨hsub, harg⟩)
  · have htotal := List.length_eq_length_filter_add (l := List.range 256) fun n => (decodeTableWord 8 n).isSome
    simp only [Option.not_isSome, length_legal_words, List.length_range] at htotal
    omega

/-- Settles O4. -/
theorem pseudoCommandsExpand : Obligations.PseudoCommandsExpand := by
  unfold Obligations.PseudoCommandsExpand
  decide

end Sys2Proof

namespace Sys2Proof.Machine

/-! ### The text of one line (R82) -/

/-- The characters that end a token or begin a comment. -/
def isBreak (c : Char) : Bool := c == ' ' || c == '\t' || c == ';'

/-- A text that is one token, with no comment in it. -/
def isToken (w : List Char) : Bool := !w.isEmpty && w.all fun c => !isBreak c

/-- The tokens of the line that `renderInstr` writes for a command of the poll loop. -/
def instrTokens : Instr → List (List Char)
  | .sub sid => [mnemonicText (.sub sid), tagDecimal sid]
  | i => [mnemonicText i]

theorem isToken_iff {w : List Char} : isToken w = true ↔ w ≠ [] ∧ ∀ c ∈ w, isBreak c = false := by
  simp [isToken]

theorem isToken_mnemonicText (i : Instr) : isToken (mnemonicText i) = true := by
  cases i <;> rfl

theorem isToken_tagDecimal : ∀ sid : Tag, isToken (tagDecimal sid) = true := by
  decide

theorem parseTag_tagDecimal : ∀ sid : Tag, parseTag (tagDecimal sid) = some sid := by
  decide

/-- The characters of a token are collected, last one first. -/
theorem tokensFrom_append {w : List Char} (h : ∀ c ∈ w, isBreak c = false) (acc rest : List Char) :
    tokensFrom acc (w ++ rest) = tokensFrom (w.reverse ++ acc) rest := by
  induction w generalizing acc with
  | nil => rfl
  | cons c w ih =>
    have hc : (c == ' ' || c == '\t') = false := by simp_all [isBreak]
    simp [tokensFrom, hc, ih fun d hd => h d (.tail _ hd)]

theorem tokensFrom_token {w : List Char} (h : isToken w = true) : tokensFrom [] w = [w] := by
  obtain ⟨hne, hbreak⟩ := isToken_iff.mp h
  simpa [tokensFrom, hne] using tokensFrom_append hbreak [] []

theorem tokensFrom_token_space {w : List Char} (h : isToken w = true) (rest : List Char) :
    tokensFrom [] (w ++ ' ' :: rest) = w :: tokensFrom [] rest := by
  obtain ⟨hne, hbreak⟩ := isToken_iff.mp h
  simpa [tokensFrom, hne] using tokensFrom_append hbreak [] (' ' :: rest)

theorem tokensFrom_renderInstr (i : Instr) : tokensFrom [] (renderInstr .pollLoop i) = instrTokens i := by
  have hmnemonic := isToken_mnemonicText i
  cases i with
  | sub sid =>
    have htag := tokensFrom_token (isToken_tagDecimal sid)
    exact (tokensFrom_token_space hmnemonic _).trans (congrArg _ htag)
  | _ => exact tokensFrom_token hmnemonic

theorem not_comment_of_mem_token {w : List Char} (h : isToken w = true) : ∀ c ∈ w, c ≠ ';' := by
  rintro _ hc rfl
  exact absurd ((isToken_iff.mp h).2 ';' hc) (by decide)

theorem stripComment_renderInstr (agent : Issuer) (i : Instr) :
    stripComment (renderInstr agent i) = renderInstr agent i := by
  have hmnemonic := not_comment_of_mem_token (isToken_mnemonicText i)
  have hbody : ∀ c ∈ renderInstr .pollLoop i, c ≠ ';' := by
    cases i with
    | sub sid =>
      have htag := not_comment_of_mem_token (isToken_tagDecimal sid)
      simp only [renderInstr, List.mem_append, List.mem_cons]
      rintro c (hc | rfl | hc)
      exacts [hmnemonic c hc, by decide, htag c hc]
    | _ => exact hmnemonic
  cases agent with
  | pollLoop => simpa [stripComment, List.takeWhile_eq_self_iff] using hbody
  | transport =>
    have hline : renderInstr .transport i = 'T' :: ':' :: ' ' :: renderInstr .pollLoop i := rfl
    simpa [hline, stripComment, List.takeWhile_eq_self_iff] using hbody

theorem parseItem_instrTokens (i : Instr) : parseItem (instrTokens i) = some (.command i) := by
  cases i with
  | sub sid => simp [instrTokens, parseItem, parseTag_tagDecimal, mnemonicText]
  | _ => rfl

theorem head_instrTokens_ne_agentMark (i : Instr) : ∃ t ts, instrTokens i = t :: ts ∧ t ≠ ['T', ':'] := by
  cases i <;> exact ⟨_, _, rfl, by simp [mnemonicText]⟩

/-- Settles O5: a rendered line holds no comment, its tokens are those of its command after the mark of the transport,
and those tokens read back. -/
theorem renderedLineParsesBack : Obligations.RenderedLineParsesBack := by
  intro agent i
  have hitem := parseItem_instrTokens i
  unfold parseLine
  rw [stripComment_renderInstr]
  cases agent with
  | pollLoop =>
    obtain ⟨t, ts, htokens, hmark⟩ := head_instrTokens_ne_agentMark i
    rw [htokens] at hitem
    simp [tokensFrom_renderInstr, htokens, hmark, hitem]
  | transport =>
    have htokens : tokensFrom [] (renderInstr .transport i) = ['T', ':'] :: instrTokens i :=
      (tokensFrom_token_space (w := ['T', ':']) rfl _).trans (congrArg _ (tokensFrom_renderInstr i))
    simp [htokens, hitem]

/-! ### The exception of an illegal word (R67, R139) -/

theorem step_of_decode_error {s : State} {a : Arrival} {rest : List Arrival} {r : IllegalReason}
    (hrun : s.halted = false) (hpend : s.pending = a :: rest) (hdec : decode a.word = .error r) :
    step s = .next ((s.accept a rest).illegalWord a.word) := by
  simp [step, hrun, State.fetch, hpend, hdec]

theorem Frame.err_eq {rs : List RegName} {s t : State} (h : Frame rs s t) (hr : .err ∉ rs) : t.err = s.err := by
  obtain ⟨_, hread, _⟩ := h
  exact bool_toNat_injective (hread .err hr)

theorem err_notMem_writes (i : Instr) : .err ∉ writes i := by
  cases i <;> simp [writes]

/-- Settles O7: R67's cases do not decode, so the step takes the exception; no command writes `err` (`exec_frame`), and
the exception sets it. -/
theorem illegalWordSetsErr : Obligations.IllegalWordSetsErr := by
  refine ⟨fun s a rest hrun hpend hcase => ?_, fun s t hstep herr => ?_⟩
  · obtain ⟨r, hdec⟩ := exists_decode_eq_error hcase
    exact step_of_decode_error hrun hpend hdec
  · obtain ⟨-, ⟨-, rfl⟩ | ⟨a, rest, -, ⟨i, -, hexec⟩ | ⟨r, -, rfl⟩⟩⟩ := step_next_cases hstep
    · exact herr
    · exact ((exec_frame hexec).err_eq (err_notMem_writes i)).trans herr
    · rfl

/-! ### Nibbles and signed bytes -/

theorem highNibble_setWidth (x : BitVec 4) : (x.setWidth 8).extractLsb' 4 4 = 0 := by
  revert x; decide

theorem lowNibble_setWidth (x : BitVec 4) : (x.setWidth 8).extractLsb' 0 4 = x := by
  revert x; decide

theorem setWidth_lowNibble {b : Byte} (h : b.extractLsb' 4 4 = 0) : (b.extractLsb' 0 4).setWidth 8 = b := by
  revert b; decide

theorem i8_s8 {n : Int} (hlo : -127 ≤ n) (hhi : n ≤ 127) : i8 (s8 n) = n := by
  rw [i8, s8, BitVec.toInt_ofInt]
  exact Int.bmod_eq_of_le (by omega) (by omega)

theorem s8_i8 (b : Byte) : s8 (i8 b) = b := BitVec.ofInt_toInt

/-! ### The bytes of a report (R75) -/

theorem encodeReport_r0_toNat (btn : Btn) (hat : Nat) (x y : Int) :
    (encodeReport btn hat x y).r0.toNat = btn.toNat % 2 ^ 8 :=
  BitVec.extractLsb'_toNat ..

theorem encodeReport_r1_toNat (btn : Btn) (hat : Nat) (x y : Int) :
    (encodeReport btn hat x y).r1.toNat = btn.toNat / 2 ^ 8 := by
  have hbtn := btn.isLt
  simp only [encodeReport, BitVec.toNat_setWidth, BitVec.extractLsb'_toNat, Nat.shiftRight_eq_div_pow]
  omega

theorem encodeReport_r2_toNat (btn : Btn) {hat : Nat} (x y : Int) (hhat : hat ≤ 8) :
    (encodeReport btn hat x y).r2.toNat = hat := by
  simp only [encodeReport, BitVec.toNat_setWidth, BitVec.toNat_ofNat]
  omega

/-- The padding nibbles of bytes 1 and 2 are zero, whatever is packed. -/
theorem encodeReport_padding (btn : Btn) (hat : Nat) (x y : Int) :
    (encodeReport btn hat x y).r1.extractLsb' 4 4 = 0 ∧ (encodeReport btn hat x y).r2.extractLsb' 4 4 = 0 :=
  ⟨highNibble_setWidth _, highNibble_setWidth _⟩

/-! ### Reading a report back (R76, R117) -/

theorem decodeReport?_of_padding {r : Report} (h : r.r1.extractLsb' 4 4 ≠ 0 ∨ r.r2.extractLsb' 4 4 ≠ 0) :
    decodeReport? r = none := by
  refine if_neg fun ⟨hpad₁, hpad₂, _⟩ => ?_
  exact h.elim (· hpad₁) (· hpad₂)

theorem decodeReport?_encodeReport {m : Mapped} (h : encodable m.hat m.x m.y = true) :
    decodeReport? (encodeReport m.btn m.hat m.x m.y) = some m := by
  obtain ⟨btn, hat, x, y⟩ := m
  obtain ⟨hhat, hx, hx', hy, hy'⟩ := (encodable_iff hat x y).mp h
  obtain ⟨hpad₁, hpad₂⟩ := encodeReport_padding btn hat x y
  have hbtn : btn.extractLsb' 8 4 ++ btn.extractLsb' 0 8 = btn :=
    (BitVec.extractLsb'_append_extractLsb'_eq_extractLsb' rfl).trans BitVec.extractLsb'_eq_self
  have hhat' : (BitVec.ofNat 4 hat).toNat = hat := Nat.mod_eq_of_lt (by omega)
  unfold decodeReport?
  simp only [hpad₁, hpad₂]
  simp [encodeReport, lowNibble_setWidth, i8_s8, hx, hx', hy, hy', hbtn, hhat', h]

theorem encodeReport_of_decodeReport? {r : Report} {m : Mapped} (h : decodeReport? r = some m) :
    encodable m.hat m.x m.y = true ∧ encodeReport m.btn m.hat m.x m.y = r := by
  unfold decodeReport? at h
  dsimp only at h
  split at h
  · next hread =>
    obtain ⟨hpad₁, hpad₂, hdom⟩ := hread
    cases h
    refine ⟨hdom, ?_⟩
    have hlow : (r.r1.extractLsb' 0 4 ++ r.r0).extractLsb' 0 8 = r.r0 := BitVec.extractLsb'_append_eq_right
    have hhigh : (r.r1.extractLsb' 0 4 ++ r.r0).extractLsb' 8 4 = r.r1.extractLsb' 0 4 :=
      BitVec.extractLsb'_append_eq_left
    simp only [encodeReport, hlow, hhigh, BitVec.ofNat_toNat, BitVec.setWidth_eq, setWidth_lowNibble hpad₁,
      setWidth_lowNibble hpad₂, s8_i8]
  · cases h

/-- Settles O40: the reader and `Encode` exposed alone are inverse to each other on the domain of `Encode`. -/
theorem reportReadInvertsEncode : Obligations.ReportReadInvertsEncode := by
  refine ⟨fun btn hat x y hhat hx hx' hy hy' => ?_, fun r m h => ?_, fun btn hat x y hout => ?_⟩
  · have hdom := (encodable_iff hat x y).mpr ⟨hhat, hx, hx', hy, hy'⟩
    exact ⟨encodeReport?_eq_some_iff.mpr ⟨hdom, rfl⟩, decodeReport?_encodeReport (m := ⟨btn, hat, x, y⟩) hdom⟩
  · exact encodeReport?_eq_some_iff.mpr (encodeReport_of_decodeReport? h)
  · refine if_neg fun hdom => ?_
    have := (encodable_iff hat x y).mp hdom
    omega

/-! ### The packed report (R77, R118) -/

theorem pack_bytes (r : Report) :
    r.pack.extractLsb' 0 8 = r.r0 ∧ r.pack.extractLsb' 8 8 = r.r1 ∧ r.pack.extractLsb' 16 8 = r.r2 ∧
      r.pack.extractLsb' 24 8 = r.r3 ∧ r.pack.extractLsb' 32 8 = r.r4 := by
  have hsum := pack_toNat r
  refine ⟨?_, ?_, ?_, ?_, ?_⟩ <;>
    · apply BitVec.eq_of_toNat_eq
      rw [BitVec.extractLsb'_toNat, Nat.shiftRight_eq_div_pow, hsum]
      omega

theorem pack_injective : Function.Injective Report.pack := by
  intro r r' h
  obtain ⟨h0, h1, h2, h3, h4⟩ := pack_bytes r
  obtain ⟨h0', h1', h2', h3', h4'⟩ := pack_bytes r'
  rw [h] at h0 h1 h2 h3 h4
  cases r
  cases r'
  rw [Report.mk.injEq]
  exact ⟨h0.symm.trans h0', h1.symm.trans h1', h2.symm.trans h2', h3.symm.trans h3', h4.symm.trans h4'⟩

/-- Settles O34: the five bytes stand apart in the packing, so that it is injective and comparing packings is comparing
reports. -/
theorem changeDetectorComparesEveryBit : Obligations.ChangeDetectorComparesEveryBit := by
  refine ⟨pack_bytes, fun s r r' hvalid hcache => ?_, fun s r hinvalid => ?_⟩
  · have hchanged : s.changed r' = true ↔ r.pack ≠ r'.pack := by simp [State.changed, hvalid, hcache]
    rw [hchanged, pack_injective.ne_iff, ne_comm]
  · simp [State.changed, hinvalid]

/-! ### The descriptor's layout (R78) -/

/-- The number that a layout packs, its first item lowest, when `value` gives each item's field. -/
def layoutValue (value : LayoutItem → Nat) : List (LayoutItem × Nat) → Nat
  | [] => 0
  | (item, width) :: rest => value item + 2 ^ width * layoutValue value rest

/-- In a number whose bits from `base` up are those of a layout, each placed item is found at its place, if every field
fits its width. -/
theorem placed_field_eq {value : LayoutItem → Nat} {n : Nat} {layout : List (LayoutItem × Nat)} {base : Nat}
    (hfits : ∀ item width, (item, width) ∈ layout → value item < 2 ^ width)
    (hn : n / 2 ^ base = layoutValue value layout) {item : LayoutItem} {start width : Nat}
    (hmem : (item, start, width) ∈ placeItems base layout) : n / 2 ^ start % 2 ^ width = value item := by
  induction layout generalizing base with
  | nil => cases hmem
  | cons first rest ih =>
    obtain ⟨first, w⟩ := first
    have hfirst : value first < 2 ^ w := hfits first w (.head _)
    rw [layoutValue] at hn
    rw [placeItems] at hmem
    cases hmem with
    | head => rw [hn, Nat.add_mul_mod_self_left, Nat.mod_eq_of_lt hfirst]
    | tail _ hmem =>
      refine ih (fun _ _ h => hfits _ _ (.tail _ h)) ?_ hmem
      rw [pow_add, ← Nat.div_div_eq_div_mul, hn, Nat.add_mul_div_left _ _ (Nat.two_pow_pos w), Nat.div_eq_of_lt hfirst,
        Nat.zero_add]

theorem itemValue_fits {m : Mapped} (hhat : m.hat ≤ 8) (item : LayoutItem) (width : Nat)
    (h : (item, width) ∈ descriptorLayout) : m.itemValue item < 2 ^ width := by
  cases item with
  | button k =>
    obtain rfl : width = 1 := by simp [descriptorLayout] at h; tauto
    exact Bool.toNat_lt _
  | padding => exact Nat.two_pow_pos width
  | hat =>
    obtain rfl : width = 4 := by simpa [descriptorLayout] using h
    exact Nat.lt_of_le_of_lt hhat (by decide)
  | axisX =>
    obtain rfl : width = 8 := by simpa [descriptorLayout] using h
    exact (s8 m.x).isLt
  | axisY =>
    obtain rfl : width = 8 := by simpa [descriptorLayout] using h
    exact (s8 m.y).isLt

/-- Items of one bit each that hold the bits of `b`, in order, pack to `b`. -/
theorem layoutValue_bits {value : LayoutItem → Nat} {b : Nat}
    (hbit : ∀ k, value (.button (k + 1)) = b / 2 ^ k % 2) (n : Nat) (rest : List (LayoutItem × Nat)) :
    layoutValue value ((List.range n).map (fun k => (.button (k + 1), 1)) ++ rest) =
      b % 2 ^ n + 2 ^ n * layoutValue value rest := by
  induction n generalizing rest with
  | zero => simp [Nat.mod_one]
  | succ n ih =>
    rw [List.range_succ, List.map_append, List.append_assoc, ih, Nat.mod_pow_succ]
    simp only [List.map_cons, List.map_nil, List.cons_append, List.nil_append, layoutValue, hbit]
    ring

theorem itemValue_button (m : Mapped) (k : Nat) : m.itemValue (.button (k + 1)) = m.btn.toNat / 2 ^ k % 2 :=
  Nat.toNat_testBit ..

theorem pack_toNat_eq_layoutValue {m : Mapped} (hhat : m.hat ≤ 8) :
    (encodeMapped m).pack.toNat = layoutValue m.itemValue descriptorLayout := by
  have hbtn := m.btn.isLt
  have hr0 : (encodeMapped m).r0.toNat = m.btn.toNat % 2 ^ 8 := encodeReport_r0_toNat ..
  have hr1 : (encodeMapped m).r1.toNat = m.btn.toNat / 2 ^ 8 := encodeReport_r1_toNat ..
  have hr2 : (encodeMapped m).r2.toNat = m.itemValue .hat := encodeReport_r2_toNat m.btn m.x m.y hhat
  have hr3 : (encodeMapped m).r3.toNat = m.itemValue .axisX := rfl
  have hr4 : (encodeMapped m).r4.toNat = m.itemValue .axisY := rfl
  have hpadding : m.itemValue .padding = 0 := rfl
  rw [descriptorLayout, layoutValue_bits (itemValue_button m), pack_toNat, hr0, hr1, hr2, hr3, hr4]
  simp only [layoutValue, nBtn, hpadding]
  omega

/-- Settles O41: the packed report is the number that the layout packs, so each item is found at its place. -/
theorem reportMatchesDescriptorLayout : Obligations.ReportMatchesDescriptorLayout := by
  refine ⟨by decide, fun m hhat _ _ _ _ item start width hmem => ?_⟩
  refine placed_field_eq (itemValue_fits hhat) ?_ hmem
  rw [pow_zero, Nat.div_one, pack_toNat_eq_layoutValue hhat]

/-! ### What the operations emit

`Emits P s t` composes along consecutive operations, as `Frame` does. -/

/-- From `s` to `t` the trace only grew, by events that satisfy `P`. -/
def Emits (P : Event → Prop) (s t : State) : Prop := ∃ evs, t.trace = s.trace ++ evs ∧ ∀ e ∈ evs, P e

namespace Emits

variable {P : Event → Prop} {s t u : State}

theorem refl (P : Event → Prop) (s : State) : Emits P s s :=
  ⟨[], (List.append_nil _).symm, by simp⟩

theorem trans (h₁ : Emits P s t) (h₂ : Emits P t u) : Emits P s u := by
  obtain ⟨evs₁, htrace₁, hP₁⟩ := h₁
  obtain ⟨evs₂, htrace₂, hP₂⟩ := h₂
  refine ⟨evs₁ ++ evs₂, by rw [htrace₂, htrace₁, List.append_assoc], fun e he => ?_⟩
  exact (List.mem_append.mp he).elim (hP₁ e) (hP₂ e)

theorem of_mem_newEvents (h : Emits P s t) {e : Event} (he : e ∈ newEvents s t) : P e := by
  obtain ⟨evs, htrace, hP⟩ := h
  exact hP e (by simpa [newEvents, htrace] using he)

end Emits

section operations
variable {P : Event → Prop} (s : State)

theorem emit_emits {e : Event} (he : P e) : Emits P s (s.emit e) :=
  ⟨[e], rfl, by simpa using he⟩

theorem setState_emits (c : ConnState) (hnotify : ∀ id code, P (.notify id code)) : Emits P s (s.setState c) := by
  by_cases hc : c = s.st
  · rw [setState_self hc]
    exact Emits.refl P s
  · rw [setState_of_ne hc]
    refine ⟨_, rfl, fun e he => ?_⟩
    unfold notifyEvents at he
    split at he <;> simp_all

/-- The sampler's events are calls of the digital I/O (R148). -/
theorem collaboratorOf_samplerEvents {p : Params} {data : BitVec 8} {e : Event} (he : e ∈ samplerEvents p data) :
    collaboratorOf e = .digitalIO := by
  simp only [samplerEvents, List.mem_append, List.mem_flatMap, List.mem_cons, List.not_mem_nil, or_false] at he
  obtain (rfl | rfl | rfl) | ⟨_, -, rfl | rfl | rfl | rfl | rfl⟩ := he <;> rfl

theorem sample_emits (hio : ∀ e, collaboratorOf e = .digitalIO → P e) : Emits P s (sample s).2 := by
  rw [sample_eq]
  exact ⟨_, rfl, fun e he => hio e (collaboratorOf_samplerEvents he)⟩

theorem sendReport_emits {r : Report} (hr : P (.reportNotify r)) : Emits P s (s.sendReport r) :=
  emit_emits s hr

theorem sendLevel_emits {l : Nat} (hl : P (.batteryNotify (BitVec.ofNat 8 l))) : Emits P s (s.sendLevel l) :=
  emit_emits s hl

theorem tickReadvertise_emits (hbegin : P .advBegin) (hnotify : ∀ id code, P (.notify id code)) :
    Emits P s (tickReadvertise s) := by
  unfold tickReadvertise
  split
  · exact (emit_emits s hbegin).trans (setState_emits _ _ hnotify)
  · exact Emits.refl P s

theorem powerOff_emits (hoff : P .powerOff) (hnotify : ∀ id code, P (.notify id code)) : Emits P s (powerOff s) :=
  (setState_emits s .stopped hnotify).trans (emit_emits _ hoff)

theorem tickAdvertising_emits (hstop : P .advStop) (hnotify : ∀ id code, P (.notify id code)) :
    Emits P s (tickAdvertising s) := by
  unfold tickAdvertising
  split
  · split
    · exact (emit_emits s hstop).trans (setState_emits _ _ hnotify)
    · exact Emits.refl P s
  · exact Emits.refl P s

/-- The battery check sends only the sample of this command, which it also records. -/
theorem tickBattery_emits
    (hlevel : (tickBattery s).battSent = BitVec.ofNat 8 s.battSample →
      P (.batteryNotify (BitVec.ofNat 8 s.battSample))) :
    Emits P s (tickBattery s) := by
  unfold tickBattery at hlevel ⊢
  split
  · next hdue =>
    rw [if_pos hdue] at hlevel
    dsimp only at hlevel ⊢
    split
    · next hsend =>
      rw [if_pos hsend] at hlevel
      exact sendLevel_emits _ (hlevel rfl)
    · exact Emits.refl P s
  · exact Emits.refl P s

end operations

theorem Frame.battSample_eq {rs : List RegName} {s t : State} (h : Frame rs s t) : t.battSample = s.battSample := by
  obtain ⟨_, _, _, hin, _⟩ := h
  rw [State.battSample, State.battSample, hin]

/-! ### What each command emits (R39, R80, R120) -/

/-- Which command from `s` to `t` may emit an event, and with which payload: a report is that of the levels drawn, a
battery level is the sample, and `batt_sent` holds it afterwards. -/
def MayEmit (i : Instr) (s t : State) : Event → Prop
  | .pinWrite _ _ | .pinRead _ _ | .delay _ => i = .poll
  | .advBegin => i = .advon ∨ i = .tick
  | .advStop => i = .stop ∨ i = .advoff ∨ i = .tick
  | .notify _ _ => True
  | .reportNotify r => i = .poll ∧ r = reportOf s.params (~~~s.inputs.data)
  | .batteryNotify l => (i = .tick ∨ i = .batt) ∧ l = BitVec.ofNat 8 s.battSample ∧ t.battSent = l
  | .powerOff => i = .tick

theorem mayEmit_poll_of_digitalIO {s t : State} {e : Event} (he : collaboratorOf e = .digitalIO) :
    MayEmit .poll s t e := by
  cases e with
  | pinWrite | pinRead | delay => rfl
  | _ => cases he

theorem exec_emits {P : Event → Prop} {i : Instr} {s t : State} (h : exec i s = .next t)
    (hP : ∀ e, MayEmit i s t e → P e) : Emits P s t := by
  have hnotify : ∀ id code, P (.notify id code) := fun _ _ => hP _ trivial
  cases i with
  | start =>
    obtain ⟨-, rfl⟩ := exec_start_next_iff.mp h
    split
    · exact setState_emits s .idle hnotify
    · exact Emits.refl P s
  | stop =>
    obtain ⟨-, rfl⟩ := exec_stop_next_iff.mp h
    split
    · exact (emit_emits s (hP .advStop (.inl rfl))).trans (setState_emits _ .stopped hnotify)
    · exact setState_emits s .stopped hnotify
  | advon =>
    obtain ⟨-, rfl⟩ := exec_advon_next_iff.mp h
    split
    · exact (emit_emits s (hP .advBegin (.inl rfl))).trans (setState_emits _ .advertising hnotify)
    · exact Emits.refl P s
  | advoff =>
    obtain ⟨-, rfl⟩ := exec_advoff_next_iff.mp h
    split
    · exact (emit_emits s (hP .advStop (.inr (.inl rfl)))).trans (setState_emits _ .idle hnotify)
    · exact Emits.refl P s
  | conn =>
    obtain ⟨-, rfl⟩ := exec_conn_next_iff.mp h
    exact setState_emits s .connected hnotify
  | disc =>
    obtain ⟨-, rfl⟩ := exec_disc_next_iff.mp h
    exact setState_emits s .idle hnotify
  | poll =>
    obtain ⟨-, rfl⟩ := exec_poll_next_iff.mp h
    have hsample : Emits P s (sample s).2 :=
      sample_emits s fun e he => hP e (mayEmit_poll_of_digitalIO he)
    split
    · exact hsample.trans (sendReport_emits _ (hP (.reportNotify _) ⟨rfl, by rw [sample_eq]⟩))
    · exact hsample
  | tick =>
    obtain ⟨-, rfl⟩ := exec_tick_next_iff.mp h
    have hreadv : Emits P s (tickReadvertise s) := tickReadvertise_emits s (hP .advBegin (.inr rfl)) hnotify
    split
    · exact hreadv.trans (powerOff_emits _ (hP .powerOff rfl) hnotify)
    · next hnotDue =>
      rw [if_neg hnotDue] at hP
      have hadv := hreadv.trans (tickAdvertising_emits _ (hP .advStop (.inr (.inr rfl))) hnotify)
      have hsample : (tickAdvertising (tickReadvertise s)).battSample = s.battSample :=
        ((tickReadvertise_frame s).trans (tickAdvertising_frame _)).battSample_eq
      exact hadv.trans (tickBattery_emits _ fun hsent => hP (.batteryNotify _) ⟨.inl rfl, by rw [hsample], hsent⟩)
  | batt =>
    obtain ⟨-, rfl⟩ := exec_batt_next_iff.mp h
    split
    · next hguard =>
      rw [if_pos hguard] at hP
      exact sendLevel_emits s (hP (.batteryNotify _) ⟨.inr rfl, rfl, rfl⟩)
    · exact Emits.refl P s
  | sub sid =>
    obtain ⟨-, rfl⟩ := exec_sub_next_iff.mp h
    exact Emits.refl P s

theorem mayEmit_of_mem_newEvents {i : Instr} {s t : State} {e : Event} (h : exec i s = .next t)
    (he : e ∈ newEvents s t) : MayEmit i s t e :=
  (exec_emits h fun _ => id).of_mem_newEvents he

theorem battLevel_toNat (s : State) : (BitVec.ofNat 8 s.battSample).toNat = s.battSample := by
  have hle : s.battSample ≤ 100 := clampLevel_le s.inputs.batt
  exact Nat.mod_eq_of_lt (by omega)

theorem battSample_toInt (s : State) : (s.battSample : Int) = min (max s.inputs.batt 0) 100 := by
  rw [State.battSample, clampLevel, battMax]
  omega

/-- Settles O42: only POLL emits a report, that of the levels drawn, and every packed report has zero padding; the
reader tests it. -/
theorem emittedReportsHaveZeroPadding : Obligations.EmittedReportsHaveZeroPadding := by
  refine ⟨fun i s t r h hr => ?_, fun r => decodeReport?_of_padding⟩
  obtain ⟨-, rfl⟩ := mayEmit_of_mem_newEvents h hr
  exact ⟨⟨_, rfl⟩, encodeReport_padding ..⟩

/-- Settles O55: a level is emitted only as the clamped sample, which fits its byte, and is recorded as it is sent. -/
theorem batteryLevelsAreClamped : Obligations.BatteryLevelsAreClamped := by
  intro i s t l h hl
  obtain ⟨-, rfl, hsent⟩ := mayEmit_of_mem_newEvents h hl
  rw [battLevel_toNat]
  exact ⟨clampLevel_le _, battSample_toInt s, hsent⟩

end Sys2Proof.Machine
end

-- The family of spec/40_sampler.md: the raw vector.
section

namespace Sys2Proof.Machine

/-! ### The raw vector (R88) -/

theorem sample_raw (s : State) : (sample s).1 = ~~~s.inputs.data := by
  rw [sample_eq]

/-- Settles O29: the raw vector is the complement of the levels read, so each bit, and each held line, is inverted. -/
theorem samplerInvertsLine : Obligations.SamplerInvertsLine := by
  intro s
  rw [sample_raw]
  refine ⟨fun i hi => ?eachBit, fun hhigh => ?heldHigh, fun hlow => ?heldLow⟩
  case eachBit => rw [BitVec.getLsbD_not, decide_eq_true hi, Bool.true_and]
  case heldHigh => rw [hhigh]; rfl
  case heldLow => rw [hlow]; rfl

end Sys2Proof.Machine
end

-- The family of spec/41_mapper.md: the buttons, the hat and the axes of a raw vector.
section

namespace Sys2Proof.Machine

/-! ### Buttons (R94, R95) -/

theorem getLsbD_setBit {n : Nat} (v : BitVec n) {i : Nat} (hi : i < n) (b : Bool) (j : Nat) :
    (setBit v i b).getLsbD j = if j = i then b else v.getLsbD j := by
  have hmask : (1#n <<< i).getLsbD j = decide (j = i) := by
    rw [← BitVec.twoPow_eq, BitVec.getLsbD_twoPow, decide_eq_true hi, Bool.true_and]
    exact decide_eq_decide.mpr eq_comm
  cases b with
  | true =>
    rw [setBit, if_pos rfl, BitVec.getLsbD_or, hmask]
    by_cases hj : j = i
    · rw [if_pos hj, decide_eq_true hj, Bool.or_true]
    · rw [if_neg hj, decide_eq_false hj, Bool.or_false]
  | false =>
    rw [setBit, if_neg Bool.false_ne_true, BitVec.getLsbD_and, BitVec.getLsbD_not, hmask]
    by_cases hj : j = i
    · rw [if_pos hj, decide_eq_true hj, Bool.not_true, Bool.and_false, Bool.and_false]
    · rw [if_neg hj, decide_eq_false hj, Bool.not_false, Bool.and_true, Bool.and_eq_left_iff_imp]
      exact fun hbit => decide_eq_true (BitVec.lt_of_getLsbD hbit)

/-- Bit `k` of the button set: the four buttons at their HID bits, and off everywhere else. -/
theorem mapButtons_getLsbD (raw : Raw) (k : Nat) :
    (mapButtons raw).getLsbD k =
      if k = 11 then raw.getLsbD 3
      else if k = 10 then raw.getLsbD 2
      else if k = 1 then raw.getLsbD 1
      else if k = 0 then raw.getLsbD 0
      else false := by
  unfold mapButtons
  rw [getLsbD_setBit _ (by decide), getLsbD_setBit _ (by decide), getLsbD_setBit _ (by decide),
    getLsbD_setBit _ (by decide)]
  simp

/-- Settles O36: each button is the last one written to its bit, and no button is written to bits 2 to 9. -/
theorem buttonMapping : Obligations.ButtonMapping := by
  intro p raw
  refine ⟨mapButtons_getLsbD raw 0, mapButtons_getLsbD raw 1, mapButtons_getLsbD raw 10, mapButtons_getLsbD raw 11,
    fun k hlo hhi => ?unused⟩
  case unused =>
    refine (mapButtons_getLsbD raw k).trans ?_
    rw [if_neg (by omega), if_neg (by omega), if_neg (by omega), if_neg (by omega)]

/-! ### Axes (R98, R99) -/

theorem mapX_eq (raw : Raw) :
    mapX raw = if raw.getLsbD 7 then 127 else if raw.getLsbD 6 then -127 else 0 := rfl

theorem mapY_eq_of_downFirst {p : Params} (hp : p.yPriority = .down) (raw : Raw) :
    mapY p raw = if raw.getLsbD 5 then 127 else if raw.getLsbD 4 then -127 else 0 := by
  rw [mapY, hp]; rfl

theorem mapY_eq_of_upFirst {p : Params} (hp : p.yPriority = .up) (raw : Raw) :
    mapY p raw = if raw.getLsbD 4 then -127 else if raw.getLsbD 5 then 127 else 0 := by
  rw [mapY, hp]; rfl

/-- `Y_PRIORITY` matters only when Up and Down are both pressed. -/
theorem mapY_eq_of_not_both (p : Params) {raw : Raw} (h : raw.getLsbD 4 = false ∨ raw.getLsbD 5 = false) :
    mapY p raw = if raw.getLsbD 5 then 127 else if raw.getLsbD 4 then -127 else 0 := by
  cases hp : p.yPriority with
  | down => exact mapY_eq_of_downFirst hp raw
  | up =>
    rw [mapY_eq_of_upFirst hp]
    rcases h with hup | hdown
    · simp only [hup, Bool.false_eq_true, if_false]
    · simp only [hdown, Bool.false_eq_true, if_false]

/-! ### Hat (R96, R97) -/

theorem hatFirstMatch_eq_zero_of_opposite :
    ∀ v h : Bool, v = false ∨ h = false → hatFirstMatch v v h h = 0 := by decide

theorem hatExactSet_eq_zero_of_opposite : ∀ v h : Bool, hatExactSet v v h h = 0 := by decide

/-- R97 (a): an opposite pair alone is centered under both readings of the hat, as is no direction at all. -/
theorem mapHat_eq_zero_of_opposite (p : Params) {raw : Raw} (hvert : raw.getLsbD 4 = raw.getLsbD 5)
    (hhoriz : raw.getLsbD 6 = raw.getLsbD 7) (halone : raw.getLsbD 5 = false ∨ raw.getLsbD 7 = false) :
    mapHat p raw = 0 := by
  unfold mapHat
  rw [hvert, hhoriz]
  cases p.hatMulti with
  | firstMatch => exact hatFirstMatch_eq_zero_of_opposite _ _ halone
  | exactSet => exact hatExactSet_eq_zero_of_opposite _ _

/-- Settles O37: the axes by the order of their tests, and the hat of a pair by `mapHat_eq_zero_of_opposite`. -/
theorem axisPriority : Obligations.AxisPriority := by
  intro p raw
  refine ⟨fun hr => ?right, fun hr hl => ?left, fun hr hl => ?xNone, fun hu hd => ?down, fun hu hd => ?up,
    fun hu hd => ?yNone, fun hu hd hp => ?bothDownFirst, fun hu hd hp => ?bothUpFirst,
    fun hu hd hl hr => ?leftRight, fun hu hd hl hr => ?upDown⟩
  case right => exact (mapX_eq raw).trans (if_pos hr)
  case left => exact (mapX_eq raw).trans (by rw [hr, hl]; rfl)
  case xNone => exact (mapX_eq raw).trans (by rw [hr, hl]; rfl)
  case down => exact (mapY_eq_of_not_both p (.inl hu)).trans (if_pos hd)
  case up => exact (mapY_eq_of_not_both p (.inr hd)).trans (by rw [hu, hd]; rfl)
  case yNone => exact (mapY_eq_of_not_both p (.inl hu)).trans (by rw [hu, hd]; rfl)
  case bothDownFirst => exact (mapY_eq_of_downFirst hp raw).trans (if_pos hd)
  case bothUpFirst => exact (mapY_eq_of_upFirst hp raw).trans (if_pos hu)
  case leftRight => exact mapHat_eq_zero_of_opposite p (hu.trans hd.symm) (hl.trans hr.symm) (.inl hd)
  case upDown => exact mapHat_eq_zero_of_opposite p (hu.trans hd.symm) (hl.trans hr.symm) (.inr hr)

/-! ### The direction table (R100) -/

/-- Settles O35: the table is finite and closed, so each half (Right released, Right pressed) is evaluated. -/
theorem directionTruthTable : Obligations.DirectionTruthTable := by
  refine List.forall_mem_append.mpr ⟨?rightReleased, ?rightPressed⟩
  case rightReleased => decide
  case rightPressed => decide

end Sys2Proof.Machine
end

-- The family of spec/42_fsm.md: the commands of the connection state machine, its transition table, the notifications,
-- and the power-off.
section

namespace Sys2Proof.Machine

/-! ### SetState, one rule per state entered (R102) -/

section entering
variable {s : State}

theorem setState_stopped (h : s.st ≠ .stopped) :
    s.setState .stopped = { s with st := .stopped, readv := false, trace := s.trace ++ notifyEvents s 0b00 } :=
  setState_of_ne h.symm

theorem setState_idle (h : s.st ≠ .idle) :
    s.setState .idle = { s with st := .idle, tAct := s.now, trace := s.trace ++ notifyEvents s 0b01 } :=
  setState_of_ne h.symm

theorem setState_advertising (h : s.st ≠ .advertising) :
    s.setState .advertising =
      { s with st := .advertising, tAdv := s.now, readv := false, trace := s.trace ++ notifyEvents s 0b10 } :=
  setState_of_ne h.symm

theorem setState_connected (h : s.st ≠ .connected) :
    s.setState .connected =
      { s with st := .connected, rptValid := false, readv := false, trace := s.trace ++ notifyEvents s 0b11 } :=
  setState_of_ne h.symm

/-- The entry effects, whichever state is entered. -/
theorem setState_entry {c : ConnState} (h : c ≠ s.st) :
    (c = .idle → (s.setState c).tAct = s.now) ∧ (c = .advertising → (s.setState c).tAdv = s.now) ∧
      (c = .connected → (s.setState c).rptValid = false) ∧ (c ≠ .idle → (s.setState c).readv = false) := by
  rw [setState_of_ne h]
  exact ⟨fun hc => if_pos hc, fun hc => if_pos hc, fun hc => if_pos hc, fun hc => if_neg hc⟩

end entering

/-! ### The commands of the state machine, whole (R104 to R110) -/

/-- Settles O16. -/
theorem startResult : Obligations.StartResult := by
  intro s hrun
  refine exec_start_next_iff.mpr ⟨hrun, ?_⟩
  by_cases hst : s.st = .stopped
  · rw [if_pos hst, if_pos hst, setState_idle (by simp [hst])]
  · rw [if_neg hst, if_neg hst]

/-- Settles O17: `AdvStop` is emitted before `SetState`, which from Stopped does nothing. -/
theorem stopResult : Obligations.StopResult := by
  intro s hrun
  refine ⟨fun hst => ?fromStopped, fun hst => ?fromAdvertising, fun hst => ?fromOther⟩
  all_goals refine exec_stop_next_iff.mpr ⟨hrun, ?_⟩
  case fromStopped => rw [if_neg (by simp [hst]), setState_self hst.symm]
  case fromAdvertising =>
    rw [if_pos hst, setState_stopped (by simp [hst])]
    rfl
  case fromOther =>
    have hne : s.st ≠ .advertising ∧ s.st ≠ .stopped := by rcases hst with h | h <;> simp [h]
    obtain ⟨hadv, hstopped⟩ := hne
    rw [if_neg hadv, setState_stopped hstopped]

/-- Settles O18. -/
theorem advonResult : Obligations.AdvonResult := by
  intro s hrun
  refine exec_advon_next_iff.mpr ⟨hrun, ?_⟩
  by_cases hst : s.st = .idle
  · rw [if_pos hst, if_pos hst, setState_advertising (by simp [hst])]
    rfl
  · rw [if_neg hst, if_neg hst]

/-- Settles O19. -/
theorem advoffResult : Obligations.AdvoffResult := by
  intro s hrun
  refine exec_advoff_next_iff.mpr ⟨hrun, ?_⟩
  by_cases hst : s.st = .advertising
  · rw [if_pos hst, if_pos hst, setState_idle (by simp [hst])]
    rfl
  · rw [if_neg hst, if_neg hst]

/-- Settles O20: the command is `SetState(Connected)` alone. -/
theorem connResult : Obligations.ConnResult := by
  intro s hrun
  refine exec_conn_next_iff.mpr ⟨hrun, ?_⟩
  by_cases hst : s.st = .connected
  · rw [if_pos hst, setState_self hst.symm]
  · rw [if_neg hst, setState_connected hst]

/-- Settles O21: `readv` is set after `SetState(Idle)`, whether or not that changed the state. -/
theorem discResult : Obligations.DiscResult := by
  intro s hrun
  refine exec_disc_next_iff.mpr ⟨hrun, ?_⟩
  by_cases hst : s.st = .idle
  · rw [if_pos hst, setState_self hst.symm]
  · rw [if_neg hst, setState_idle hst]

/-- Settles O22: the registration is a plain write of two registers, so a second one overwrites it. -/
theorem subResult : Obligations.SubResult := by
  intro s sid hrun
  refine ⟨exec_sub_next_iff.mpr ⟨hrun, rfl⟩, fun sid' t h => ?_⟩
  obtain ⟨-, rfl⟩ := exec_sub_next_iff.mp h
  exact exec_sub_next_iff.mpr ⟨hrun, rfl⟩

/-- Settles O26. -/
theorem refusedTransitionIsSilent : Obligations.RefusedTransitionIsSilent := by
  intro s hrun
  refine ⟨fun hst => ?start, fun hst => ?advon, fun hst => ?advoff⟩
  case start => exact exec_start_next_iff.mpr ⟨hrun, if_neg hst⟩
  case advon => exact exec_advon_next_iff.mpr ⟨hrun, if_neg hst⟩
  case advoff => exact exec_advoff_next_iff.mpr ⟨hrun, if_neg hst⟩

/-! ### The new events of consecutive operations -/

section newEvents
variable {rs rs' : List RegName} {s t u : State}

theorem newEvents_of_trace_eq {evs : List Event} (h : t.trace = s.trace ++ evs) : newEvents s t = evs := by
  rw [newEvents, h, List.drop_left]

theorem newEvents_trans (h₁ : Frame rs s t) (h₂ : Frame rs' t u) :
    newEvents s u = newEvents s t ++ newEvents t u := by
  obtain ⟨-, htrace₁, -⟩ := h₁.changesOnly
  obtain ⟨-, htrace₂, -⟩ := h₂.changesOnly
  exact newEvents_of_trace_eq (by rw [htrace₂, htrace₁, List.append_assoc])

theorem newEvents_setState (s : State) (c : ConnState) :
    newEvents s (s.setState c) = if c = s.st then [] else notifyEvents s c.code := by
  split
  · next hc => rw [setState_self hc, newEvents, List.drop_length]
  · next hc => exact newEvents_of_trace_eq (by rw [setState_of_ne hc])

end newEvents

/-! ### The six transition commands as one rule (R112)

Each of them makes the calls of the table, then `SetState` of the table's next state; DISC then sets `readv`. -/

/-- The commands of R112's first table. -/
abbrev transitionCommands : List Instr := [.start, .stop, .advon, .advoff, .conn, .disc]

/-- Several events in order. -/
def State.emitAll (evs : List Event) (s : State) : State := { s with trace := s.trace ++ evs }

/-- What DISC does after its `SetState` (R109). -/
def State.markReadv (i : Instr) (s : State) : State := if i = .disc then { s with readv := true } else s

/-- The table's calls, its `SetState`, and the mark of DISC. -/
def State.transition (i : Instr) (s : State) : State :=
  ((s.emitAll (tableCalls i s.st)).setState (tableNext i s.st)).markReadv i

@[simp] theorem emitAll_nil (s : State) : s.emitAll [] = s := by
  rw [State.emitAll, List.append_nil]

@[simp] theorem emitAll_singleton (s : State) (e : Event) : s.emitAll [e] = s.emit e := rfl

theorem emitAll_frame (s : State) (evs : List Event) : Frame [] s (s.emitAll evs) :=
  ⟨evs, fun r _ => by cases r <;> rfl, rfl, rfl, rfl, rfl⟩

theorem markReadv_frame (i : Instr) (s : State) : Frame [.readv] s (s.markReadv i) := by
  unfold State.markReadv
  split
  · exact setReadv_frame s true
  · exact Frame.refl _ s

theorem newEvents_markReadv (i : Instr) (s : State) : newEvents s (s.markReadv i) = [] := by
  refine newEvents_of_trace_eq ?_
  unfold State.markReadv
  split <;> exact (List.append_nil _).symm

theorem markReadv_idem (i : Instr) (s : State) : (s.markReadv i).markReadv i = s.markReadv i := by
  unfold State.markReadv
  split <;> rfl

theorem tableCalls_of_tableNext_eq {i : Instr} (hi : i ∈ transitionCommands) {c : ConnState} (h : tableNext i c = c) :
    tableCalls i c = [] := by
  revert i
  cases c <;> decide

/-- A second issue finds the table's next state, and a cell of no change. -/
theorem tableNext_tableNext {i : Instr} (hi : i ∈ transitionCommands) (c : ConnState) :
    tableNext i (tableNext i c) = tableNext i c := by
  revert i
  cases c <;> decide

theorem transition_of_tableNext_eq {i : Instr} (hi : i ∈ transitionCommands) {s : State}
    (h : tableNext i s.st = s.st) : s.transition i = s.markReadv i := by
  rw [State.transition, tableCalls_of_tableNext_eq hi h, emitAll_nil, setState_self h]

theorem running_congr {s : State} {body body' : State → State} (h : body s = body' s) :
    s.running body = s.running body' := by
  rw [State.running, State.running, h]

/-- Cell by cell, the rule of a command is that of the table. -/
theorem exec_eq_running_transition {i : Instr} (hi : i ∈ transitionCommands) (s : State) :
    exec i s = s.running (State.transition i) := by
  cases i with
  | start | stop | advon | advoff | conn | disc =>
    unfold exec
    refine running_congr ?_
    cases hst : s.st <;> simp [State.transition, State.markReadv, tableCalls, tableNext, setState_self, hst]
  | poll | tick | batt | sub => simp at hi

theorem exec_transition_next_iff {i : Instr} (hi : i ∈ transitionCommands) {s t : State} :
    exec i s = .next t ↔ s.halted = false ∧ s.transition i = t := by
  rw [exec_eq_running_transition hi, running_next_iff]

theorem transition_st (i : Instr) (s : State) : (s.transition i).st = tableNext i s.st := by
  rw [State.transition, (markReadv_frame i _).st_eq (by decide), setState_st]

theorem newEvents_transition (i : Instr) (s : State) :
    newEvents s (s.transition i) =
      tableCalls i s.st ++
        if tableNext i s.st = s.st then [] else notifyEvents s (tableNext i s.st).code := by
  rw [State.transition, newEvents_trans ((emitAll_frame s _).trans (setState_frame _ _)) (markReadv_frame i _),
    newEvents_trans (emitAll_frame s _) (setState_frame _ _), newEvents_setState, newEvents_markReadv, List.append_nil,
    newEvents_of_trace_eq (evs := tableCalls i s.st) rfl]
  rfl

/-- A second issue finds a cell of no change. -/
theorem transition_transition {i : Instr} (hi : i ∈ transitionCommands) (s : State) :
    (s.transition i).transition i = s.transition i := by
  have hstay : tableNext i (s.transition i).st = (s.transition i).st := by
    rw [transition_st, tableNext_tableNext hi]
  rw [transition_of_tableNext_eq hi hstay, State.transition, markReadv_idem]

/-! ### TICK, by its case (R124 to R130) -/

theorem tickReadvertise_of_due {s : State} (hst : s.st = .idle) (hreadv : s.readv = true) :
    tickReadvertise s = (s.emit .advBegin).setState .advertising :=
  if_pos (by simp [State.readvertiseDue, hst, hreadv])

theorem tickReadvertise_of_not_due {s : State} (h : s.st = .idle → s.readv = false) : tickReadvertise s = s :=
  if_neg (by cases hreadv : s.readv <;> simp_all [State.readvertiseDue])

/-- The block powers off only in Idle with no re-advertise to do: a re-advertise leaves Idle before the idle check. -/
theorem idleDue_tickReadvertise_iff {s : State} :
    (tickReadvertise s).idleDue = true ↔
      s.st = .idle ∧ s.readv = false ∧ s.params.idleTimeout < s.elapsed s.tAct := by
  cases hreadv : s.readv with
  | false => simp [tickReadvertise_of_not_due fun _ => hreadv, State.idleDue]
  | true =>
    by_cases hst : s.st = .idle
    · simp [tickReadvertise_of_due hst hreadv, State.idleDue]
    · simp [tickReadvertise_of_not_due fun h => absurd h hst, State.idleDue, hst]

/-- The advertising phase has not timed out when it has just been entered. -/
theorem advDue_enter_advertising {s : State} (h : s.st ≠ .advertising) : (s.setState .advertising).advDue = false := by
  have helapsed : (s.setState .advertising).elapsed (s.setState .advertising).tAdv = 0 := by
    rw [setState_advertising h]
    exact elapsed_self s
  simp [State.advDue, helapsed]

/-- The indicator register written (R27). -/
def State.withLed (b : Bool) (s : State) : State := { s with led := b }

section withLed
variable (s : State) (b : Bool)

@[simp] theorem withLed_st : (s.withLed b).st = s.st := rfl
@[simp] theorem withLed_led : (s.withLed b).led = b := rfl

theorem withLed_frame : Frame [.led] s (s.withLed b) := setLed_frame s b

theorem withLed_emits (P : Event → Prop) : Emits P s (s.withLed b) := Emits.refl P s

end withLed

/-- What one TICK can have done, one constructor per case of R127 to R131; the battery check comes last in each but the
power-off. -/
inductive TickResult (s : State) : State → Prop
  | readvertise (hst : s.st = .idle) (hreadv : s.readv = true) :
      TickResult s (tickBattery (((s.emit .advBegin).setState .advertising).withLed s.blink))
  | powerOff (hst : s.st = .idle) (hreadv : s.readv = false) (hdue : s.params.idleTimeout < s.elapsed s.tAct) :
      TickResult s (powerOff s)
  | advTimeout (hst : s.st = .advertising) (hdue : s.params.advTimeout < s.elapsed s.tAdv) :
      TickResult s (tickBattery (((s.emit .advStop).setState .idle).withLed false))
  | blink (hst : s.st = .advertising) (hnotDue : s.elapsed s.tAdv ≤ s.params.advTimeout) :
      TickResult s (tickBattery (s.withLed s.blink))
  | batteryOnly (hst : s.st ≠ .advertising) (hreadv : s.st = .idle → s.readv = false)
      (hnotDue : s.st = .idle → s.elapsed s.tAct ≤ s.params.idleTimeout) : TickResult s (tickBattery s)

theorem tickResult_of_exec {s t : State} (h : exec .tick s = .next t) : TickResult s t := by
  obtain ⟨-, rfl⟩ := exec_tick_next_iff.mp h
  split
  · next hidle =>
    obtain ⟨hst, hreadv, hdue⟩ := idleDue_tickReadvertise_iff.mp hidle
    rw [tickReadvertise_of_not_due fun _ => hreadv]
    exact .powerOff hst hreadv hdue
  · next hidle =>
    rw [idleDue_tickReadvertise_iff] at hidle
    by_cases hre : s.st = .idle ∧ s.readv = true
    · obtain ⟨hst, hreadv⟩ := hre
      have hadv : tickAdvertising (tickReadvertise s) =
          (tickReadvertise s).withLed (tickReadvertise s).blink := by
        rw [tickReadvertise_of_due hst hreadv, tickAdvertising, if_pos (setState_st _ _),
          advDue_enter_advertising (by simp [hst])]
        rfl
      rw [hadv, (tickReadvertise_frame s).blink_eq, tickReadvertise_of_due hst hreadv]
      exact .readvertise hst hreadv
    · have hreadv : s.st = .idle → s.readv = false := fun hst => by simpa [hst] using hre
      rw [tickReadvertise_of_not_due hreadv, tickAdvertising]
      split
      · next hst =>
        split
        · next hdue => exact .advTimeout hst (by simpa [State.advDue] using hdue)
        · next hdue => exact .blink hst (by simpa [State.advDue] using hdue)
      · next hst =>
        exact .batteryOnly hst hreadv fun hidl => Nat.le_of_not_lt fun hdue => hidle ⟨hidl, hreadv hidl, hdue⟩

/-! ### Changes of state (R102, R103)

`EntersState` is kept by what a command does before and after its `SetState`, so it is proved of a command by following
its operations. -/

/-- From `s` to `t` the trace only grew, without a notification. -/
abbrev Silent (s t : State) : Prop := Emits (fun e => isNotify e = false) s t

/-- From `s` to `t` the connection state changed, with the entry effects of the new state and its one notification. -/
structure EntersState (s t : State) : Prop where
  changed : t.st ≠ s.st
  tAct : t.st = .idle → t.tAct = s.now
  tAdv : t.st = .advertising → t.tAdv = s.now
  rptValid : t.st = .connected → t.rptValid = false
  readv : t.st ≠ .idle → t.readv = false
  notified : ∃ evs, t.trace = s.trace ++ evs ∧ evs.filter isNotify = notifyEvents s t.st.code

theorem filter_isNotify_notifyEvents (s : State) (code : BitVec 2) :
    (notifyEvents s code).filter isNotify = notifyEvents s code := by
  unfold notifyEvents
  split <;> rfl

theorem filter_isNotify_of_silent {evs : List Event} (h : ∀ e ∈ evs, isNotify e = false) : evs.filter isNotify = [] :=
  List.filter_eq_nil_iff.mpr fun e he => by simp [h e he]

theorem isNotify_of_digitalIO {e : Event} (h : collaboratorOf e = .digitalIO) : isNotify e = false := by
  cases e with
  | notify => cases h
  | _ => rfl

theorem tableCalls_silent {i : Instr} (hi : i ∈ transitionCommands) (c : ConnState) :
    ∀ e ∈ tableCalls i c, isNotify e = false := by
  revert i
  cases c <;> decide

namespace EntersState

variable {s t u : State}

theorem setState {c : ConnState} (h : c ≠ s.st) : EntersState s (s.setState c) := by
  obtain ⟨htAct, htAdv, hrptValid, hreadv⟩ := setState_entry h
  constructor <;> rw [setState_st]
  case changed => exact h
  case tAct => exact htAct
  case tAdv => exact htAdv
  case rptValid => exact hrptValid
  case readv => exact hreadv
  case notified => exact ⟨_, by rw [setState_of_ne h], filter_isNotify_notifyEvents s _⟩

/-- Calls made before `SetState`. -/
theorem of_emitAll {calls : List Event} (hcalls : ∀ e ∈ calls, isNotify e = false)
    (h : EntersState (s.emitAll calls) t) : EntersState s t := by
  obtain ⟨evs, htrace, hevs⟩ := h.notified
  refine { h with notified := ⟨calls ++ evs, ?_, ?_⟩ }
  · rw [htrace, State.emitAll, List.append_assoc]
  · rw [List.filter_append, filter_isNotify_of_silent hcalls, hevs]
    rfl

/-- What follows `SetState`, if it writes no register of the entry effects. -/
theorem trans_frame {rs : List RegName} (h : EntersState s t) (hframe : Frame rs t u) (hsilent : Silent t u)
    (hrs : ∀ r ∈ [RegName.st, .tAct, .tAdv, .rptValid, .readv], r ∉ rs) : EntersState s u := by
  obtain ⟨evs, htrace, hevs⟩ := h.notified
  obtain ⟨evs', htrace', hevs'⟩ := hsilent
  have hst : u.st = t.st := hframe.st_eq (hrs .st (by decide))
  obtain ⟨_, hread, _⟩ := hframe
  have htAct : u.tAct = t.tAct := hread .tAct (hrs .tAct (by decide))
  have htAdv : u.tAdv = t.tAdv := hread .tAdv (hrs .tAdv (by decide))
  have hrptValid : u.rptValid = t.rptValid := bool_toNat_injective (hread .rptValid (hrs .rptValid (by decide)))
  have hreadv : u.readv = t.readv := bool_toNat_injective (hread .readv (hrs .readv (by decide)))
  constructor <;> simp only [hst, htAct, htAdv, hrptValid, hreadv]
  case changed => exact h.changed
  case tAct => exact h.tAct
  case tAdv => exact h.tAdv
  case rptValid => exact h.rptValid
  case readv => exact h.readv
  case notified =>
    refine ⟨evs ++ evs', by rw [htrace', htrace, List.append_assoc], ?_⟩
    rw [List.filter_append, hevs, filter_isNotify_of_silent hevs', List.append_nil]

/-- DISC enters Idle, where `readv` may be set. -/
theorem markReadv {i : Instr} (h : EntersState s t) (hidle : i = .disc → t.st = .idle) :
    EntersState s (t.markReadv i) := by
  unfold State.markReadv
  split
  · next hi => exact { h with readv := fun hne => absurd (hidle hi) hne }
  · exact h

theorem tickBattery (h : EntersState s t) : EntersState s (tickBattery t) :=
  h.trans_frame (tickBattery_frame t) (tickBattery_emits t fun _ => rfl) (by decide)

theorem withLed (h : EntersState s t) (b : Bool) : EntersState s (t.withLed b) :=
  h.trans_frame (withLed_frame t b) (withLed_emits t b _) (by decide)

end EntersState

theorem tickBattery_st (s : State) : (tickBattery s).st = s.st :=
  (tickBattery_frame s).st_eq (by decide)

theorem tickBattery_led (s : State) : (tickBattery s).led = s.led :=
  (tickBattery_frame s).led_eq (by decide)

theorem tickBattery_silent (s : State) : Silent s (tickBattery s) :=
  tickBattery_emits s fun _ => rfl

theorem transition_keeps_or_enters {i : Instr} (hi : i ∈ transitionCommands) (s : State) :
    ((s.transition i).st = s.st ∧ Silent s (s.transition i)) ∨ EntersState s (s.transition i) := by
  by_cases hst : tableNext i s.st = s.st
  · refine .inl ⟨(transition_st i s).trans hst, [], ?_, by simp⟩
    rw [transition_of_tableNext_eq hi hst, List.append_nil, State.markReadv]
    split <;> rfl
  · have henter : EntersState (s.emitAll (tableCalls i s.st)) _ := .setState hst
    refine .inr ((henter.markReadv ?_).of_emitAll (tableCalls_silent hi s.st))
    rintro rfl
    exact setState_st _ _

theorem TickResult.keeps_or_enters {s t : State} (h : TickResult s t) :
    (t.st = s.st ∧ Silent s t) ∨ EntersState s t := by
  cases h with
  | readvertise hst =>
    have henter : EntersState (s.emitAll [.advBegin]) _ := .setState (c := .advertising) (by simp [State.emitAll, hst])
    exact .inr (((henter.of_emitAll (by simp [isNotify])).withLed s.blink).tickBattery)
  | powerOff hst =>
    have henter : EntersState s _ := .setState (c := .stopped) (by simp [hst])
    have hoff := (emit_frame (s.setState .stopped) .powerOff).trans (setHalted_frame _ true)
    exact .inr (henter.trans_frame hoff (emit_emits _ rfl) (by decide))
  | advTimeout hst =>
    have henter : EntersState (s.emitAll [.advStop]) _ := .setState (c := .idle) (by simp [State.emitAll, hst])
    exact .inr (((henter.of_emitAll (by simp [isNotify])).withLed false).tickBattery)
  | blink => exact .inl ⟨tickBattery_st _, tickBattery_silent _⟩
  | batteryOnly => exact .inl ⟨tickBattery_st s, tickBattery_silent s⟩

/-- A command either keeps the connection state and notifies nobody, or makes one change of state. -/
theorem exec_keeps_or_enters {i : Instr} {s t : State} (h : exec i s = .next t) :
    (t.st = s.st ∧ Silent s t) ∨ EntersState s t := by
  cases i with
  | start | stop | advon | advoff | conn | disc =>
    obtain ⟨-, rfl⟩ := (exec_transition_next_iff (by decide)).mp h
    exact transition_keeps_or_enters (by decide) s
  | tick => exact (tickResult_of_exec h).keeps_or_enters
  | poll =>
    refine .inl ⟨(exec_frame h).st_eq (by decide), ?_⟩
    obtain ⟨-, rfl⟩ := exec_poll_next_iff.mp h
    have hsample : Silent s (sample s).2 := sample_emits s fun _ => isNotify_of_digitalIO
    split
    · exact hsample.trans (sendReport_emits _ rfl)
    · exact hsample
  | batt =>
    refine .inl ⟨(exec_frame h).st_eq (by decide), ?_⟩
    obtain ⟨-, rfl⟩ := exec_batt_next_iff.mp h
    split
    · exact sendLevel_emits s rfl
    · exact Emits.refl _ s
  | sub sid =>
    obtain ⟨-, rfl⟩ := exec_sub_next_iff.mp h
    exact .inl ⟨rfl, Emits.refl _ s⟩

/-- Settles O27: every change of state is one of `exec_keeps_or_enters`. -/
theorem stateEntryEffects : Obligations.StateEntryEffects := by
  intro i s t h hne
  obtain ⟨hkept, -⟩ | henter := exec_keeps_or_enters h
  · exact absurd hkept hne
  · exact ⟨henter.tAct, henter.tAdv, henter.rptValid, henter.readv⟩

/-- Settles O25: a command that keeps the state is silent, and a change of state carries its one notification. -/
theorem notifyExactlyOncePerChange : Obligations.NotifyExactlyOncePerChange := by
  intro i s t h
  obtain ⟨hkept, evs, htrace, hsilent⟩ | henter := exec_keeps_or_enters h
  · rw [if_pos hkept, newEvents_of_trace_eq htrace, filter_isNotify_of_silent hsilent]
  · obtain ⟨evs, htrace, hnotify⟩ := henter.notified
    rw [if_neg henter.changed, newEvents_of_trace_eq htrace, hnotify]
    rfl

/-! ### The transition table (R112) -/

theorem mem_newEvents_of_emit {rs : List RegName} {s t : State} {e : Event} (h : Frame rs (s.emit e) t) :
    e ∈ newEvents s t := by
  rw [newEvents_trans (emit_frame s e) h, newEvents_of_trace_eq (evs := [e]) rfl]
  exact List.mem_cons_self

@[simp] theorem powerOff_st (s : State) : (powerOff s).st = .stopped := setState_st s .stopped

@[simp] theorem powerOff_halted (s : State) : (powerOff s).halted = true := rfl

theorem newEvents_powerOff {s : State} (h : s.st = .idle) :
    newEvents s (powerOff s) = notifyEvents s 0b00 ++ [.powerOff] :=
  newEvents_of_trace_eq (by rw [powerOff_eq h, List.append_assoc])

/-- Settles O23: the first table is `exec_transition_next_iff`, and the second is read off the cases of TICK. -/
theorem transitionTable : Obligations.TransitionTable := by
  intro s t
  refine ⟨fun i hi h => ?commands, fun h => ?tick⟩
  case commands =>
    obtain ⟨-, rfl⟩ := (exec_transition_next_iff hi).mp h
    refine ⟨transition_st i s, ?_, ?_, fun hst => ?_⟩
    · rw [newEvents_transition, transition_st]
    · rintro rfl
      rfl
    · rw [transition_st] at hst
      exact transition_of_tableNext_eq hi hst
  case tick =>
    cases tickResult_of_exec h with
    | readvertise hst hreadv =>
      have hbegin : .advBegin ∈ newEvents s _ :=
        mem_newEvents_of_emit
          (((setState_frame _ .advertising).trans (withLed_frame _ s.blink)).trans (tickBattery_frame _))
      simp [hst, hreadv, tickBattery_st, hbegin]
    | powerOff hst hreadv hdue =>
      have hoff : .powerOff ∈ newEvents s (powerOff s) := by simp [newEvents_powerOff hst]
      simp [hst, hreadv, hdue, hoff]
    | advTimeout hst hdue =>
      have hstop : .advStop ∈ newEvents s _ :=
        mem_newEvents_of_emit (((setState_frame _ .idle).trans (withLed_frame _ false)).trans (tickBattery_frame _))
      simp [hst, hdue, tickBattery_st, tickBattery_led, hstop]
    | blink hst hnotDue => simp [hst, hnotDue, tickBattery_st]
    | batteryOnly hst hreadv hnotDue =>
      rw [tickBattery_st]
      exact ⟨fun hidle hr => absurd ((hreadv hidle).symm.trans hr) Bool.false_ne_true,
        fun hidle _ => ⟨fun hdue => absurd hdue (hnotDue hidle).not_gt, fun _ => hidle⟩,
        fun hadv => absurd hadv hst, id, id⟩

/-! ### Repeated commands (R63) -/

/-- Settles O24: a repeated transition command meets a cell of no change (`transition_transition`). -/
theorem repeatedCommandIsNoOp : Obligations.RepeatedCommandIsNoOp := by
  refine ⟨fun i s t hpoll htick hbatt h => ?fsm, fun s t h => ?poll, fun s t h hst => ?batt⟩
  case fsm =>
    cases i with
    | start | stop | advon | advoff | conn | disc =>
      have hhalted := (exec_frame h).halted_eq (by decide)
      obtain ⟨hrun, rfl⟩ := (exec_transition_next_iff (by decide)).mp h
      exact (exec_transition_next_iff (by decide)).mpr ⟨hhalted.trans hrun, transition_transition (by decide) s⟩
    | sub sid =>
      obtain ⟨hrun, rfl⟩ := exec_sub_next_iff.mp h
      exact exec_sub_next_iff.mpr ⟨hrun, rfl⟩
    | poll | tick | batt => contradiction
  case poll =>
    obtain ⟨-, rfl⟩ := exec_poll_next_iff.mp h
    have hsample : newEvents s (sample s).2 = samplerEvents s.params s.inputs.data :=
      newEvents_of_trace_eq (by rw [sample_eq])
    split
    · exact ⟨_, by rw [newEvents_trans (sample_frame s) (sendReport_frame _ _), hsample]⟩
    · exact ⟨[], by rw [hsample, List.append_nil]⟩
  case batt =>
    obtain ⟨hrun, rfl⟩ := exec_batt_next_iff.mp h
    have hguard : s.guardSend = true := decide_eq_true hst
    rw [if_pos hguard]
    exact ⟨_, _, exec_batt_next_iff.mpr ⟨hrun, if_pos hguard⟩, newEvents_of_trace_eq rfl⟩

/-! ### The power-off (R115, R128) -/

theorem exec_running {i : Instr} {s t : State} (h : exec i s = .next t) : s.halted = false := by
  by_contra hh
  rw [exec_of_halted (Bool.eq_true_of_not_eq_false hh)] at h
  cases h

/-- The cases of TICK other than the power-off write `halted` no more than they emit `PowerOff`. -/
theorem tickChecks_no_powerOff (s : State) :
    (tickBattery (tickAdvertising (tickReadvertise s))).halted = s.halted ∧
      .powerOff ∉ newEvents s (tickBattery (tickAdvertising (tickReadvertise s))) := by
  have hframe := ((tickReadvertise_frame s).trans (tickAdvertising_frame _)).trans (tickBattery_frame _)
  have hemits : Emits (· ≠ .powerOff) s (tickBattery (tickAdvertising (tickReadvertise s))) :=
    ((tickReadvertise_emits s nofun fun _ _ => nofun).trans (tickAdvertising_emits _ nofun fun _ _ => nofun)).trans
      (tickBattery_emits _ fun _ => nofun)
  exact ⟨hframe.halted_eq (by decide), fun hoff => hemits.of_mem_newEvents hoff rfl⟩

/-- Settles O53: only TICK writes `halted` or emits `PowerOff`, and of its cases only the idle check. -/
theorem powerOffOnlyByIdleGuard : Obligations.PowerOffOnlyByIdleGuard := by
  intro i s t h hoff
  have hrun := exec_running h
  have htick : i = .tick := by
    obtain hhalted | hevent := hoff
    · by_contra hne
      have hr : .halted ∉ writes i := by cases i <;> simp_all [writes]
      rw [(exec_frame h).halted_eq hr, hrun] at hhalted
      cases hhalted
    · exact mayEmit_of_mem_newEvents h hevent
  subst htick
  obtain ⟨-, rfl⟩ := exec_tick_next_iff.mp h
  split at hoff
  · next hidle =>
    obtain ⟨hst, hreadv, hdue⟩ := idleDue_tickReadvertise_iff.mp hidle
    rw [if_pos hidle, tickReadvertise_of_not_due fun _ => hreadv]
    refine ⟨rfl, hst, hreadv, hdue, powerOff_halted s, powerOff_st s, ?_⟩
    rw [newEvents_powerOff hst, notifyEvents]
    split <;> rfl
  · obtain ⟨hhalted, hevent⟩ := tickChecks_no_powerOff s
    rw [hhalted, hrun] at hoff
    exact absurd hoff (by simp [hevent])

end Sys2Proof.Machine
end

-- The family of spec/43_report.md: the packer, the images of the mapper under it, and POLL with its change detector.
section

namespace Sys2Proof.Machine

/-! ### The packing of a report (R116) -/

/-- Settles O39: the bytes by the lemmas on `encodeReport`, the axes because a signed byte holds [-127, 127]. -/
theorem encodeLayout : Obligations.EncodeLayout := by
  refine ⟨fun btn hat x y hhat hx hx' hy hy' => ?bytes, ?sourceExample⟩
  case bytes =>
    exact ⟨encodeReport_r0_toNat btn hat x y, encodeReport_r1_toNat btn hat x y, encodeReport_r2_toNat btn x y hhat,
      i8_s8 hx hx', i8_s8 hy hy'⟩
  case sourceExample => decide

/-! ### The images of the mapper and of the packer over it (R117) -/

theorem hatFirstMatch_le : ∀ u d l r : Bool, hatFirstMatch u d l r ≤ 8 := by decide

theorem hatExactSet_le : ∀ u d l r : Bool, hatExactSet u d l r ≤ 8 := by decide

theorem mapHat_le (p : Params) (raw : Raw) : mapHat p raw ≤ 8 := by
  unfold mapHat
  cases p.hatMulti with
  | firstMatch => exact hatFirstMatch_le ..
  | exactSet => exact hatExactSet_le ..

/-- The values an axis takes. -/
def IsAxisValue (n : Int) : Prop := n = -127 ∨ n = 0 ∨ n = 127

namespace IsAxisValue

theorem low : IsAxisValue (-127) := .inl rfl

theorem centre : IsAxisValue 0 := .inr (.inl rfl)

theorem high : IsAxisValue 127 := .inr (.inr rfl)

theorem ite {c : Prop} [Decidable c] {m n : Int} (hm : IsAxisValue m) (hn : IsAxisValue n) :
    IsAxisValue (if c then m else n) := by
  split
  · exact hm
  · exact hn

theorem s8_mem {n : Int} (h : IsAxisValue n) : s8 n ∈ [(0x00 : Byte), 0x7F, 0x81] := by
  rcases h with rfl | rfl | rfl <;> decide

end IsAxisValue

theorem mapX_isAxisValue (raw : Raw) : IsAxisValue (mapX raw) :=
  mapX_eq raw ▸ .ite .high (.ite .low .centre)

theorem mapY_isAxisValue (p : Params) (raw : Raw) : IsAxisValue (mapY p raw) := by
  cases hp : p.yPriority with
  | down => exact mapY_eq_of_downFirst hp raw ▸ .ite .high (.ite .low .centre)
  | up => exact mapY_eq_of_upFirst hp raw ▸ .ite .low (.ite .high .centre)

/-- The two button bytes depend only on the four buttons, two in each. -/
theorem mapButtons_bytes_mem (raw : Raw) :
    (mapButtons raw).extractLsb' 0 8 ∈ [(0x00 : Byte), 0x01, 0x02, 0x03] ∧
      ((mapButtons raw).extractLsb' 8 4).setWidth 8 ∈ [(0x00 : Byte), 0x04, 0x08, 0x0C] := by
  unfold mapButtons
  generalize raw.getLsbD 0 = a, raw.getLsbD 1 = b, raw.getLsbD 2 = select, raw.getLsbD 3 = start
  revert a b select start
  decide

/-- Settles O38: the image of each part of the mapper, then of its byte. -/
theorem reportImages : Obligations.ReportImages := by
  intro p raw
  obtain ⟨hr0, hr1⟩ := mapButtons_bytes_mem raw
  have hhat := mapHat_le p raw
  have hr2 : (reportOf p raw).r2.toNat = mapHat p raw := encodeReport_r2_toNat _ _ _ hhat
  have hx := mapX_isAxisValue raw
  have hy := mapY_isAxisValue p raw
  exact ⟨hhat, hx, hy, hr0, hr1, hr2.trans_le hhat, hx.s8_mem, hy.s8_mem⟩

/-! ### POLL: the sampling pass and the guarded send (R120) -/

/-- The report of the levels the command draws, which is the one POLL computes. -/
def State.currentReport (s : State) : Report := reportOf s.params (~~~s.inputs.data)

/-- POLL has a report to send: the guard of R114 and the change detector of R118. -/
abbrev State.ReportDue (s : State) : Prop :=
  s.st = .connected ∧ (s.rptValid = false ∨ s.rptCache ≠ s.currentReport.pack)

theorem changed_iff {s : State} {r : Report} :
    s.changed r = true ↔ s.rptValid = false ∨ s.rptCache ≠ r.pack := by
  simp [State.changed]

/-- The sampler touches neither the guard nor the cache, so both are those before the command. -/
theorem exec_poll_next_iff_reportDue {s t : State} :
    exec .poll s = .next t ↔
      s.halted = false ∧
        (if s.ReportDue then (sample s).2.sendReport s.currentReport else (sample s).2) = t := by
  have hreport : reportOf (sample s).2.params (sample s).1 = s.currentReport := by rw [sample_eq]; rfl
  have hdue : (sample s).2.guardSend ∧ (sample s).2.changed s.currentReport ↔ s.ReportDue := by
    rw [changed_iff, sample_eq, State.guardSend, decide_eq_true_iff]
  rw [exec_poll_next_iff, hreport]
  simp only [hdue]

/-- What a POLL does: it samples, and sends exactly when a report is due. -/
theorem poll_next_cases {s t : State} (h : exec .poll s = .next t) :
    (s.ReportDue ∧ t = (sample s).2.sendReport s.currentReport) ∨ (¬s.ReportDue ∧ t = (sample s).2) := by
  obtain ⟨-, rfl⟩ := exec_poll_next_iff_reportDue.mp h
  split
  · next hdue => exact .inl ⟨hdue, rfl⟩
  · next hdue => exact .inr ⟨hdue, rfl⟩

/-- Settles O30: POLL by whether a report is due, and the sampler by `sample_eq`. -/
theorem pollResult : Obligations.PollResult := by
  intro s hrun
  refine exec_poll_next_iff_reportDue.mpr ⟨hrun, ?_⟩
  by_cases hdue : s.ReportDue
  · refine (if_pos hdue).trans (Eq.trans ?_ (if_pos hdue).symm)
    rw [sample_eq]
    rfl
  · refine (if_neg hdue).trans (Eq.trans ?_ (if_neg hdue).symm)
    rw [sample_eq]

/-! ### The events of POLL (R121 to R123) -/

/-- Three events of the latch pulse, and five for each of the eight reads. -/
theorem samplerEvents_length (p : Params) (data : BitVec 8) : (samplerEvents p data).length = 43 := by
  simp [samplerEvents, nRaw]

theorem newEvents_sample (s : State) : newEvents s (sample s).2 = samplerEvents s.params s.inputs.data :=
  newEvents_of_trace_eq (by rw [sample_eq])

theorem newEvents_sample_sendReport (s : State) (r : Report) :
    newEvents s ((sample s).2.sendReport r) = samplerEvents s.params s.inputs.data ++ [.reportNotify r] := by
  rw [newEvents_trans (sample_frame s) (sendReport_frame _ r), newEvents_sample,
    newEvents_of_trace_eq (sendReport_trace _ r)]

/-- Settles O31: with no report due, POLL is the sampler alone. -/
theorem pollWithoutSend : Obligations.PollWithoutSend := by
  intro s hrun hquiet
  have hdue : ¬s.ReportDue := by
    rintro ⟨hst, hnew⟩
    obtain hne | ⟨hvalid, hcache⟩ := hquiet
    · exact hne hst
    · exact hnew.elim (fun hinvalid => absurd (hinvalid.symm.trans hvalid) Bool.false_ne_true) (· hcache)
  exact ⟨samplerEvents_length .., (sample s).2, exec_poll_next_iff_reportDue.mpr ⟨hrun, if_neg hdue⟩,
    newEvents_sample s, (sample_frame s).changesOnly⟩

/-! ### The first report of a connection (R123) -/

theorem Frame.rptValid_eq {rs : List RegName} {s t : State} (h : Frame rs s t) (hr : .rptValid ∉ rs) :
    t.rptValid = s.rptValid := by
  obtain ⟨_, hread, _⟩ := h
  exact bool_toNat_injective (hread .rptValid hr)

/-- Only CONN and POLL write `rpt_valid`, and CONN only clears it. -/
theorem rptValid_false_of_exec {i : Instr} {s t : State} (hi : i ≠ .poll) (hvalid : s.rptValid = false)
    (h : exec i s = .next t) : t.rptValid = false := by
  by_cases hconn : i = .conn
  · subst hconn
    obtain ⟨-, rfl⟩ := exec_conn_next_iff.mp h
    by_cases hst : s.st = .connected
    · rw [setState_self hst.symm, hvalid]
    · rw [setState_connected hst]
  · have hr : .rptValid ∉ writes i := by cases i <;> simp_all [writes]
    rw [(exec_frame h).rptValid_eq hr, hvalid]

/-- Settles O32: CONN enters Connected, and with `rpt_valid` clear there a report is due, whatever it is. -/
theorem firstReportOfConnection : Obligations.FirstReportOfConnection := by
  refine ⟨fun s t hst h => ?conn, fun i s t hi hvalid h => rptValid_false_of_exec hi hvalid h,
    fun s t hst hvalid h => ?firstPoll, fun s t h => ⟨samplerEvents_length .., ?anyPoll⟩⟩
  case conn =>
    obtain ⟨-, rfl⟩ := exec_conn_next_iff.mp h
    rw [setState_connected hst]
    exact ⟨rfl, rfl⟩
  case firstPoll =>
    obtain ⟨-, rfl⟩ | ⟨hdue, -⟩ := poll_next_cases h
    · exact newEvents_sample_sendReport s _
    · exact absurd ⟨hst, .inl hvalid⟩ hdue
  case anyPoll =>
    obtain ⟨-, rfl⟩ | ⟨-, rfl⟩ := poll_next_cases h
    · exact .inr ⟨_, newEvents_sample_sendReport s _⟩
    · exact .inl (newEvents_sample s)

/-! ### The same report is no change (R119) -/

theorem Frame.params_eq {rs : List RegName} {s t : State} (h : Frame rs s t) : t.params = s.params := by
  obtain ⟨_, _, _, _, _, hpar⟩ := h
  exact hpar

/-- After a POLL while Connected the cache holds the current report, whether it was sent now or before. -/
theorem poll_caches_currentReport {s t : State} (hst : s.st = .connected) (h : exec .poll s = .next t) :
    t.rptValid = true ∧ t.rptCache = s.currentReport.pack := by
  obtain ⟨-, rfl⟩ | ⟨hdue, rfl⟩ := poll_next_cases h
  · exact ⟨rfl, rfl⟩
  · have hsame : ¬(s.rptValid = false ∨ s.rptCache ≠ s.currentReport.pack) := fun hnew => hdue ⟨hst, hnew⟩
    rw [sample_eq]
    simpa using hsame

/-- Settles O33: the first POLL leaves its report in the cache, so the same report again is not due. -/
theorem sameReportIsNoChange : Obligations.SameReportIsNoChange := by
  refine ⟨fun s t u inp hst h hsame h' => ?secondPoll, by decide, by decide⟩
  case secondPoll =>
    have hparams := (exec_frame h).params_eq
    obtain ⟨hvalid, hcache⟩ := poll_caches_currentReport hst h
    obtain ⟨⟨-, hinvalid | hdiff⟩, -⟩ | ⟨-, rfl⟩ := poll_next_cases h'
    · exact absurd (hinvalid.symm.trans hvalid) Bool.false_ne_true
    · refine absurd ?_ hdiff
      rw [State.currentReport, hparams, hsame]
      exact hcache
    · rw [← hparams, sample_eq]
      exact ⟨newEvents_of_trace_eq rfl, rfl, rfl⟩

end Sys2Proof.Machine
end

-- The family of spec/44_timers.md: the clock arithmetic, TICK whole in each of its cases, its deadlines and events, and
-- BATT.
section

namespace Sys2Proof.Machine

/-! ### Elapsed time (R125) -/

theorem subMod_eq_of_add_modEq {w a b d : Nat} (hd : d < 2 ^ w) (h : a ≡ b + d [MOD 2 ^ w]) : subMod w a b = d := by
  have hsub : (a : Int) - b ≡ d [ZMOD (2 ^ w : Nat)] := by
    simpa using (Int.natCast_modEq_iff.mpr h).sub_right (b : Int)
  have hmod : ((a : Int) - b) % (2 ^ w : Nat) = d :=
    Eq.trans hsub (Int.emod_eq_of_lt d.cast_nonneg (Int.ofNat_lt.mpr hd))
  rw [subMod, ← Nat.cast_ofNat, ← Nat.cast_pow, hmod, Int.toNat_natCast]

/-- Settles O49: below a timestamp by `k`, `now` is also `2^TIME_W - k` after it, one wrap on. -/
theorem elapsedWrapsAround : Obligations.ElapsedWrapsAround := by
  have hafter : ∀ (s : State) (t d : Nat), d < 2 ^ s.params.timeW →
      s.inputs.now ≡ t + d [MOD 2 ^ s.params.timeW] → s.elapsed t = d :=
    fun s t d hd h => subMod_eq_of_add_modEq hd ((Nat.mod_modEq _ _).trans h)
  refine ⟨fun s t d _ hd h => hafter s t d hd h, fun s t k ht hk h => ?below⟩
  case below =>
    have hwrap : t + (2 ^ s.params.timeW - k) = s.inputs.now + 2 ^ s.params.timeW := by omega
    refine hafter s t _ (by omega) ?_
    rw [hwrap]
    exact Nat.add_modEq_right.symm

/-! ### The blink (R130, R168) -/

theorem blink_of_pos {s : State} (h : 0 < s.params.blinkHalf) :
    s.blink = (decide (s.now / s.params.blinkHalf % 2 = 1) ^^ s.params.blinkPhase) := by
  rw [State.blink, if_neg h.ne']

theorem decide_odd_succ (n : Nat) : decide ((n + 1) % 2 = 1) = !decide (n % 2 = 1) := by
  rw [← decide_not, decide_eq_decide]
  omega

/-- Settles O51: a half-period adds one to the quotient of R130. -/
theorem blinkTogglesEachHalfPeriod : Obligations.BlinkTogglesEachHalfPeriod := by
  intro s s' hparams hpos
  have hblink' : s'.blink = (decide (s'.now / s.params.blinkHalf % 2 = 1) ^^ s.params.blinkPhase) := by
    rw [← hparams] at hpos ⊢
    exact blink_of_pos hpos
  rw [hblink', blink_of_pos hpos]
  refine ⟨fun hnow => ?toggles, fun hsame => by rw [hsame]⟩
  case toggles => rw [hnow, Nat.add_div_right _ hpos, decide_odd_succ, Bool.not_xor]

/-! ### The battery check and BATT (R131, R134) -/

theorem tickBattery_eq_afterBatteryCheck (s : State) : tickBattery s = afterBatteryCheck s := tickBattery_eq s

theorem tickBattery_of_not_due {s : State} (h : s.elapsed s.tBatt ≤ s.params.battPeriod) : tickBattery s = s := by
  rw [tickBattery_eq, if_neg h.not_gt]

theorem tickBattery_tBatt_of_due {s : State} (h : s.params.battPeriod < s.elapsed s.tBatt) :
    (tickBattery s).tBatt = s.now := by
  rw [tickBattery_eq, if_pos h]
  split <;> rfl

/-- Settles O48. -/
theorem battResult : Obligations.BattResult := by
  intro s hrun
  refine exec_batt_next_iff.mpr ⟨hrun, ?_⟩
  by_cases hst : s.st = .connected
  · have hguard : s.guardSend = true := decide_eq_true hst
    rw [if_pos hguard, if_pos hst]
    rfl
  · rw [if_neg (by simpa [State.guardSend] using hst), if_neg hst]

/-! ### TICK, whole in each of its cases (R124 to R132, R136) -/

theorem tickAdvertising_of_due {s : State} (hst : s.st = .advertising) (hdue : s.advDue = true) :
    tickAdvertising s = ((s.emit .advStop).setState .idle).withLed false := by
  rw [tickAdvertising, if_pos hst, if_pos hdue, State.withLed]

theorem tickAdvertising_of_not_due {s : State} (hst : s.st = .advertising) (hdue : s.advDue = false) :
    tickAdvertising s = s.withLed s.blink := by
  rw [tickAdvertising, if_pos hst, hdue, if_neg Bool.false_ne_true, State.withLed]

theorem tickAdvertising_of_ne {s : State} (hst : s.st ≠ .advertising) : tickAdvertising s = s := if_neg hst

/-- The converse of `tickResult_of_exec`: in a running block the cases of `TickResult` are what TICK answers. -/
theorem exec_tick_of_tickResult {s t : State} (hrun : s.halted = false) (h : TickResult s t) :
    exec .tick s = .next t := by
  refine exec_tick_next_iff.mpr ⟨hrun, ?_⟩
  cases h with
  | readvertise hst hreadv =>
    have hadv := advDue_enter_advertising (s := s.emit .advBegin) (by simp [hst])
    rw [if_neg (by simp [idleDue_tickReadvertise_iff, hreadv]), tickReadvertise_of_due hst hreadv,
      tickAdvertising_of_not_due (setState_st _ _) hadv,
      ((emit_frame s .advBegin).trans (setState_frame _ .advertising)).blink_eq]
  | powerOff hst hreadv hdue =>
    rw [if_pos (idleDue_tickReadvertise_iff.mpr ⟨hst, hreadv, hdue⟩), tickReadvertise_of_not_due fun _ => hreadv]
  | advTimeout hst hdue =>
    rw [if_neg (by simp [idleDue_tickReadvertise_iff, hst]), tickReadvertise_of_not_due (by simp [hst]),
      tickAdvertising_of_due hst (decide_eq_true hdue)]
  | blink hst hnotDue =>
    rw [if_neg (by simp [idleDue_tickReadvertise_iff, hst]), tickReadvertise_of_not_due (by simp [hst]),
      tickAdvertising_of_not_due hst (decide_eq_false hnotDue.not_gt)]
  | batteryOnly hst hreadv hnotDue =>
    have hidle : ¬(tickReadvertise s).idleDue = true := fun hoff => by
      obtain ⟨hidl, -, hdue⟩ := idleDue_tickReadvertise_iff.mp hoff
      exact (hnotDue hidl).not_gt hdue
    rw [if_neg hidle, tickReadvertise_of_not_due hreadv, tickAdvertising_of_ne hst]

/-- Settles O43: in Idle with `readv = 0` already, `SetState(Stopped)` clears nothing. -/
theorem tickIdlePowerOff : Obligations.TickIdlePowerOff := by
  intro s hrun hst hreadv hdue
  rw [exec_tick_of_tickResult hrun (.powerOff hst hreadv hdue), powerOff_eq hst]
  simp only [hreadv]

/-- Settles O44. -/
theorem tickReadvertises : Obligations.TickReadvertises := by
  intro s hrun hst hreadv
  rw [exec_tick_of_tickResult hrun (.readvertise hst hreadv), tickBattery_eq_afterBatteryCheck,
    setState_advertising (by simp [hst])]
  rfl

/-- Settles O45. -/
theorem tickAdvertisingTimeout : Obligations.TickAdvertisingTimeout := by
  intro s hrun hst hdue
  rw [exec_tick_of_tickResult hrun (.advTimeout hst hdue), tickBattery_eq_afterBatteryCheck,
    setState_idle (by simp [hst])]
  rfl

/-- Settles O46. -/
theorem tickBlinks : Obligations.TickBlinks := by
  intro s hrun hst hnotDue
  refine ⟨?_, blink_of_pos⟩
  rw [exec_tick_of_tickResult hrun (.blink hst hnotDue), tickBattery_eq_afterBatteryCheck, State.withLed]

/-- Settles O47: each of the three situations is the case `batteryOnly` of TICK. -/
theorem tickBatteryOnly : Obligations.TickBatteryOnly := by
  intro s hrun hcase
  have hresult : TickResult s (tickBattery s) := by
    obtain hst | hst | ⟨hst, hreadv, hnotDue⟩ := hcase
    · exact .batteryOnly (by simp [hst]) (by simp [hst]) (by simp [hst])
    · exact .batteryOnly (by simp [hst]) (by simp [hst]) (by simp [hst])
    · exact .batteryOnly (by simp [hst]) (fun _ => hreadv) (fun _ => hnotDue)
  rw [exec_tick_of_tickResult hrun hresult, tickBattery_eq_afterBatteryCheck]

/-! ### The deadlines (R133) -/

/-- TICK either powers off, or ends with the battery check of a state in which the battery's own registers are still as
they were. -/
theorem TickResult.halted_or_battery {s t : State} (h : TickResult s t) :
    t.halted = true ∨ ∃ u, Frame [.st, .tAct, .tAdv, .readv, .led] s u ∧ t = tickBattery u := by
  cases h with
  | readvertise =>
    have hframe := ((emit_frame s .advBegin).trans (setState_frame _ .advertising)).trans (withLed_frame _ s.blink)
    exact .inr ⟨_, hframe.mono (by decide), rfl⟩
  | powerOff => exact .inl (powerOff_halted s)
  | advTimeout =>
    have hframe := ((emit_frame s .advStop).trans (setState_frame _ .idle)).trans (withLed_frame _ false)
    exact .inr ⟨_, hframe.mono (by decide), rfl⟩
  | blink => exact .inr ⟨_, (withLed_frame s s.blink).mono (by decide), rfl⟩
  | batteryOnly => exact .inr ⟨s, Frame.refl _ s, rfl⟩

namespace Frame

variable {rs : List RegName} {s t : State}

theorem now_eq (h : Frame rs s t) : t.now = s.now := by
  obtain ⟨_, _, _, hin, _, hpar⟩ := h
  rw [State.now, State.now, hin, hpar]

theorem elapsed_eq (h : Frame rs s t) (n : Nat) : t.elapsed n = s.elapsed n := by
  rw [State.elapsed, State.elapsed, h.now_eq, h.params_eq]

theorem tBatt_eq (h : Frame rs s t) (hr : .tBatt ∉ rs) : t.tBatt = s.tBatt := by
  obtain ⟨_, hread, _⟩ := h
  exact hread .tBatt hr

theorem battSent_eq (h : Frame rs s t) (hr : .battSent ∉ rs) : t.battSent = s.battSent := by
  obtain ⟨_, hread, _⟩ := h
  exact BitVec.eq_of_toNat_eq (hread .battSent hr)

end Frame

/-- Settles O50: the state deadlines by the transition table (R112) and the one way to the power-off (R128), the
battery's by the check that ends every other TICK. -/
theorem deadlinesAreStrict : Obligations.DeadlinesAreStrict := by
  intro s t h
  obtain ⟨-, htick⟩ := transitionTable s t
  obtain ⟨-, hidle, hadv, -⟩ := htick h
  refine ⟨fun hst hreadv => ⟨fun hoff => ?offDue, fun hdue => ?dueOff⟩,
    fun hst => ⟨fun htst => ?idleDue, fun hdue => ?dueIdle⟩, fun hrun => ?battery⟩
  case offDue =>
    obtain ⟨-, -, -, hdue, -⟩ := powerOffOnlyByIdleGuard .tick s t h (.inl hoff)
    exact hdue
  case dueOff =>
    obtain ⟨hpast, -⟩ := hidle hst hreadv
    obtain ⟨-, hoff, -⟩ := hpast hdue
    exact hoff
  case idleDue =>
    obtain ⟨-, hbefore⟩ := hadv hst
    by_contra hdue
    have hstay : t.st = .advertising := hbefore (Nat.le_of_not_lt hdue)
    simp [htst] at hstay
  case dueIdle =>
    obtain ⟨hpast, -⟩ := hadv hst
    obtain ⟨hgone, -⟩ := hpast hdue
    exact hgone
  case battery =>
    obtain hoff | ⟨u, hframe, rfl⟩ := (tickResult_of_exec h).halted_or_battery
    · exact absurd (hrun.symm.trans hoff) Bool.false_ne_true
    · rw [← hframe.now_eq, ← hframe.params_eq, ← hframe.elapsed_eq, ← hframe.tBatt_eq (by decide),
        ← hframe.battSent_eq (by decide)]
      refine ⟨fun hdue => tickBattery_tBatt_of_due hdue, fun hnotDue => ?_⟩
      rw [tickBattery_of_not_due hnotDue]
      exact ⟨rfl, rfl⟩

/-! ### How often one TICK emits (R135) -/

/-- How many advertising calls, notifications, power-offs and battery notifications a list of events holds. -/
def tally (evs : List Event) : Nat × Nat × Nat × Nat :=
  ((evs.filter isAdvCall).length, (evs.filter isNotify).length, evs.count .powerOff,
    (evs.filter isBatteryNotify).length)

theorem tally_append (evs evs' : List Event) : tally (evs ++ evs') = tally evs + tally evs' := by
  simp only [tally, List.filter_append, List.length_append, List.count_append, Prod.mk_add_mk]

/-- The tallies of consecutive operations, each bounded, add up. -/
theorem tally_newEvents_trans_le {rs rs' : List RegName} {s t u : State} {m n : Nat × Nat × Nat × Nat}
    (h₁ : Frame rs s t) (h₂ : Frame rs' t u) (hm : tally (newEvents s t) ≤ m) (hn : tally (newEvents t u) ≤ n) :
    tally (newEvents s u) ≤ m + n := by
  rw [newEvents_trans h₁ h₂, tally_append]
  exact add_le_add hm hn

theorem tally_notifyEvents_le (s : State) (code : BitVec 2) : tally (notifyEvents s code) ≤ (0, 1, 0, 0) := by
  unfold notifyEvents
  split
  · exact le_rfl
  · decide

theorem tally_setState_le (s : State) (c : ConnState) : tally (newEvents s (s.setState c)) ≤ (0, 1, 0, 0) := by
  rw [newEvents_setState]
  split
  · decide
  · exact tally_notifyEvents_le s c.code

theorem tally_powerOff_le {s : State} (hst : s.st = .idle) : tally (newEvents s (powerOff s)) ≤ (0, 1, 1, 0) := by
  rw [newEvents_powerOff hst, tally_append]
  exact add_le_add (tally_notifyEvents_le s 0b00) (le_refl (0, 0, 1, 0))

/-- The indicator is no event. -/
theorem newEvents_withLed (s : State) (b : Bool) : newEvents s (s.withLed b) = [] :=
  newEvents_of_trace_eq (List.append_nil _).symm

theorem tally_tickBattery_le (s : State) : tally (newEvents s (tickBattery s)) ≤ (0, 0, 0, 1) := by
  have hevents : newEvents s (tickBattery s) = [] ∨
      newEvents s (tickBattery s) = [.batteryNotify (BitVec.ofNat 8 s.battSample)] := by
    rw [tickBattery_eq]
    split
    · split
      · exact .inr (newEvents_of_trace_eq rfl)
      · exact .inl (newEvents_of_trace_eq (List.append_nil _).symm)
    · exact .inl (newEvents_of_trace_eq (List.append_nil _).symm)
  obtain hnone | hlevel := hevents
  · rw [hnone]
    decide
  · rw [hlevel]
    exact le_rfl

/-- A call to the transport and the change of state after it, as in the first three checks of TICK. -/
theorem tally_callThenChange_le (s : State) {e : Event} (he : isAdvCall e = true) (c : ConnState) (b : Bool) :
    tally (newEvents s (((s.emit e).setState c).withLed b)) ≤ (1, 1, 0, 0) := by
  have hcall : tally (newEvents s (s.emit e)) ≤ (1, 0, 0, 0) := by
    rw [newEvents_of_trace_eq (emit_trace s e)]
    cases e with
    | advBegin | advStop => decide
    | _ => cases he
  rw [newEvents_trans ((emit_frame s e).trans (setState_frame _ c)) (withLed_frame _ b), newEvents_withLed,
    List.append_nil]
  exact tally_newEvents_trans_le (emit_frame s e) (setState_frame _ c) hcall (tally_setState_le _ c)

theorem TickResult.tally_le {s t : State} (h : TickResult s t) : tally (newEvents s t) ≤ (1, 1, 1, 1) := by
  have hchange : ∀ (e : Event) (c : ConnState) (b : Bool), isAdvCall e = true →
      tally (newEvents s (tickBattery (((s.emit e).setState c).withLed b))) ≤ (1, 1, 0, 1) := fun e c b he =>
    tally_newEvents_trans_le (((emit_frame s e).trans (setState_frame _ c)).trans (withLed_frame _ b))
      (tickBattery_frame _) (tally_callThenChange_le s he c b) (tally_tickBattery_le _)
  cases h with
  | readvertise => exact (hchange .advBegin .advertising s.blink rfl).trans (by decide)
  | powerOff hst => exact (tally_powerOff_le hst).trans (by decide)
  | advTimeout => exact (hchange .advStop .idle false rfl).trans (by decide)
  | blink =>
    rw [newEvents_trans (withLed_frame s s.blink) (tickBattery_frame _), newEvents_withLed, List.nil_append]
    exact (tally_tickBattery_le _).trans (by decide)
  | batteryOnly => exact (tally_tickBattery_le s).trans (by decide)

/-- Settles O52: the order of tallies is componentwise, so `TickResult.tally_le` is the four bounds. -/
theorem tickActsAtMostOnce : Obligations.TickActsAtMostOnce :=
  fun _ _ h => (tickResult_of_exec h).tally_le

end Sys2Proof.Machine
end

-- The family of spec/60_exceptions.md: the block powered off and the block running, the guards of the transport, and
-- the use of the collaborators.
section

namespace Sys2Proof.Machine

/-! ### Every command and every step completes, or none does (R137, R146, R152) -/

theorem step_of_halted {s : State} (h : s.halted = true) : step s = .fault .poweredOff := if_pos h

/-- Settles O9: `halted` is tested before anything else, by the step as by every command. -/
theorem poweredOffHasNoStep : Obligations.PoweredOffHasNoStep :=
  fun _ h => ⟨step_of_halted h, exec_of_halted h⟩

/-- Settles O11: the step reads the word and the inputs of an arrival and never its issuer, so that both sides compute
alike. -/
theorem issuerMakesNoDifference : Obligations.IssuerMakesNoDifference := fun _ _ _ _ => rfl

/-- `halted = 0` is the only precondition of each command. -/
theorem exists_exec_eq_next {s : State} (hrun : s.halted = false) (i : Instr) : ∃ t, exec i s = .next t := by
  cases i with
  | start | stop | advon | advoff | conn | disc =>
    exact ⟨_, (exec_transition_next_iff (by decide)).mpr ⟨hrun, rfl⟩⟩
  | poll => exact ⟨_, exec_poll_next_iff.mpr ⟨hrun, rfl⟩⟩
  | tick => exact ⟨_, exec_tick_next_iff.mpr ⟨hrun, rfl⟩⟩
  | batt => exact ⟨_, exec_batt_next_iff.mpr ⟨hrun, rfl⟩⟩
  | sub sid => exact ⟨_, exec_sub_next_iff.mpr ⟨hrun, rfl⟩⟩

theorem Frame.inputs_eq {rs : List RegName} {s t : State} (h : Frame rs s t) : t.inputs = s.inputs := by
  obtain ⟨_, _, _, hin, _⟩ := h
  exact hin

theorem Frame.pending_eq {rs : List RegName} {s t : State} (h : Frame rs s t) : t.pending = s.pending := by
  obtain ⟨_, _, _, _, hpend, _⟩ := h
  exact hpend

theorem step_of_pending_nil {s : State} (hrun : s.halted = false) (hpend : s.pending = []) : step s = .next s := by
  simp [step, hrun, State.fetch, hpend]

/-- Settles O10: a command completes (`exists_exec_eq_next`) within its frame, and a step waits, runs a command, or
takes the exception. -/
theorem runningBlockAlwaysSteps : Obligations.RunningBlockAlwaysSteps := by
  intro s hrun
  refine ⟨fun i => ?command, ?step⟩
  case command =>
    obtain ⟨t, h⟩ := exists_exec_eq_next hrun i
    have hframe := exec_frame h
    exact ⟨t, h, hframe.params_eq, hframe.inputs_eq, hframe.pending_eq⟩
  case step =>
    cases hpend : s.pending with
    | nil => exact ⟨s, step_of_pending_nil hrun hpend, rfl, hpend⟩
    | cons a rest =>
      cases hdec : decode a.word with
      | ok i =>
        obtain ⟨t, h⟩ := exists_exec_eq_next (s := s.accept a rest) hrun i
        have hframe := exec_frame h
        exact ⟨t, (stepRunsDecodedCommand s a rest i hpend hdec).trans h, hframe.params_eq, hframe.pending_eq⟩
      | error r => exact ⟨_, step_of_decode_error hrun hpend hdec, rfl, rfl⟩

/-! ### The guards of the transport (R114, R149) -/

/-- The event may be emitted by a command that finds the block in state `c` and leaves it in state `d`, as far as the
guards of the transport go. -/
def guardMet (c d : ConnState) : Event → Bool
  | .reportNotify _ | .batteryNotify _ => decide (c = .connected)
  | .advBegin => decide (c = .idle) && decide (d = .advertising)
  | .advStop => decide (c = .advertising) && decide (d ≠ .advertising)
  | .pinWrite _ _ | .pinRead _ _ | .delay _ | .notify _ _ | .powerOff => true

/-- From `s` to `t` the trace only grew, by events whose guards are met. -/
abbrev Guarded (s t : State) : Prop := Emits (fun e => guardMet s.st t.st e = true) s t

theorem guardMet_tableCalls {i : Instr} (hi : i ∈ transitionCommands) (c : ConnState) :
    ∀ e ∈ tableCalls i c, guardMet c (tableNext i c) e = true := by
  revert i
  cases c <;> decide

theorem guardMet_of_digitalIO {c d : ConnState} {e : Event} (h : collaboratorOf e = .digitalIO) :
    guardMet c d e = true := by
  cases e with
  | pinWrite | pinRead | delay => rfl
  | _ => cases h

theorem emitAll_emits {P : Event → Prop} (s : State) {evs : List Event} (h : ∀ e ∈ evs, P e) :
    Emits P s (s.emitAll evs) :=
  ⟨evs, rfl, h⟩

theorem markReadv_emits (P : Event → Prop) (i : Instr) (s : State) : Emits P s (s.markReadv i) := by
  unfold State.markReadv
  split <;> exact Emits.refl P s

theorem transition_guarded {i : Instr} (hi : i ∈ transitionCommands) (s : State) : Guarded s (s.transition i) := by
  unfold Guarded
  rw [transition_st]
  have hcalls := emitAll_emits s (guardMet_tableCalls hi s.st)
  exact (hcalls.trans (setState_emits _ _ fun _ _ => rfl)).trans (markReadv_emits _ i _)

/-- The battery check is a guarded send. -/
theorem tickBattery_emits_of_connected {P : Event → Prop} (s : State)
    (hlevel : s.st = .connected → ∀ l, P (.batteryNotify l)) : Emits P s (tickBattery s) := by
  rw [tickBattery_eq]
  split
  · split
    · next hsend =>
      obtain ⟨hst, -⟩ := hsend
      exact emit_emits s (hlevel hst _)
    · exact Emits.refl P s
  · exact Emits.refl P s

/-- By the time of the battery check the state may have changed, but then it is not Connected. -/
theorem TickResult.guarded {s t : State} (h : TickResult s t) : Guarded s t := by
  unfold Guarded
  cases h with
  | readvertise hst hreadv =>
    have hbegin := emit_emits (P := fun e => guardMet .idle .advertising e = true) s (e := .advBegin) rfl
    rw [tickBattery_st, withLed_st, setState_st, hst]
    exact ((hbegin.trans (setState_emits _ _ fun _ _ => rfl)).trans (withLed_emits _ _ _)).trans
      (tickBattery_emits_of_connected _ (by simp))
  | powerOff => exact powerOff_emits s rfl fun _ _ => rfl
  | advTimeout hst hdue =>
    have hstop := emit_emits (P := fun e => guardMet .advertising .idle e = true) s (e := .advStop) rfl
    rw [tickBattery_st, withLed_st, setState_st, hst]
    exact ((hstop.trans (setState_emits _ _ fun _ _ => rfl)).trans (withLed_emits _ _ _)).trans
      (tickBattery_emits_of_connected _ (by simp))
  | blink => exact (withLed_emits s _ _).trans (tickBattery_emits_of_connected _ fun hst _ => decide_eq_true hst)
  | batteryOnly => exact tickBattery_emits_of_connected s fun hst _ => decide_eq_true hst

theorem exec_guarded {i : Instr} {s t : State} (h : exec i s = .next t) : Guarded s t := by
  cases i with
  | start | stop | advon | advoff | conn | disc =>
    obtain ⟨-, rfl⟩ := (exec_transition_next_iff (by decide)).mp h
    exact transition_guarded (by decide) s
  | poll =>
    have hsample : ∀ d, Emits (fun e => guardMet s.st d e = true) s (sample s).2 := fun _ =>
      sample_emits s fun _ => guardMet_of_digitalIO
    obtain ⟨⟨hst, -⟩, rfl⟩ | ⟨-, rfl⟩ := poll_next_cases h
    · exact (hsample _).trans (sendReport_emits _ (decide_eq_true hst))
    · exact hsample _
  | tick => exact (tickResult_of_exec h).guarded
  | batt =>
    obtain ⟨-, rfl⟩ := exec_batt_next_iff.mp h
    split
    · next hguard => exact sendLevel_emits s hguard
    · exact Emits.refl _ s
  | sub sid =>
    obtain ⟨-, rfl⟩ := exec_sub_next_iff.mp h
    exact Emits.refl _ s

/-- Settles O54: the guard of every new event is met (`exec_guarded`). -/
theorem transportCallsGuarded : Obligations.TransportCallsGuarded := by
  intro i s t h
  have hmet : ∀ e ∈ newEvents s t, guardMet s.st t.st e = true := fun _ => (exec_guarded h).of_mem_newEvents
  refine ⟨fun r hr => ?report, fun l hl => ?level, fun hbegin => ?begin, fun hstop => ?stop⟩
  case report => exact of_decide_eq_true (hmet _ hr)
  case level => exact of_decide_eq_true (hmet _ hl)
  case begin => simpa [guardMet] using hmet _ hbegin
  case stop => simpa [guardMet] using hmet _ hstop

/-! ### Other draws (R150)

`mapInputs f` gives the command other inputs. Each operation gives the same under every `f` that keeps the inputs it
reads. -/

/-- The state with its inputs replaced by `f` of them. -/
def State.mapInputs (f : Inputs → Inputs) (s : State) : State := { s with inputs := f s.inputs }

section mapInputs
variable {f : Inputs → Inputs} (s : State)

theorem emit_mapInputs (e : Event) : (s.mapInputs f).emit e = (s.emit e).mapInputs f := rfl

theorem emitAll_mapInputs (evs : List Event) : (s.mapInputs f).emitAll evs = (s.emitAll evs).mapInputs f := rfl

theorem withLed_mapInputs (b : Bool) : (s.mapInputs f).withLed b = (s.withLed b).mapInputs f := rfl

theorem markReadv_mapInputs (i : Instr) : (s.mapInputs f).markReadv i = (s.markReadv i).mapInputs f := by
  unfold State.markReadv
  split <;> rfl

section now
variable (hnow : ∀ inp, (f inp).now = inp.now)
include hnow

theorem now_mapInputs : (s.mapInputs f).now = s.now := congrArg (· % 2 ^ s.params.timeW) (hnow s.inputs)

theorem elapsed_mapInputs (n : Nat) : (s.mapInputs f).elapsed n = s.elapsed n :=
  congrArg (subMod s.params.timeW · n) (now_mapInputs s hnow)

theorem blink_mapInputs : (s.mapInputs f).blink = s.blink := by
  simp only [State.blink, now_mapInputs s hnow]
  rfl

theorem setState_mapInputs (c : ConnState) : (s.mapInputs f).setState c = (s.setState c).mapInputs f := by
  by_cases hc : c = s.st
  · rw [setState_self hc, setState_self (s := s.mapInputs f) hc]
  · rw [setState_of_ne hc, setState_of_ne (s := s.mapInputs f) hc, now_mapInputs s hnow]
    rfl

theorem transition_mapInputs (i : Instr) : (s.mapInputs f).transition i = (s.transition i).mapInputs f := by
  rw [State.transition, emitAll_mapInputs, setState_mapInputs _ hnow, markReadv_mapInputs]
  rfl

theorem sendReport_mapInputs (r : Report) : (s.mapInputs f).sendReport r = (s.sendReport r).mapInputs f := by
  rw [State.sendReport, now_mapInputs s hnow]
  rfl

theorem powerOff_mapInputs : powerOff (s.mapInputs f) = (powerOff s).mapInputs f := by
  rw [powerOff, setState_mapInputs s hnow]
  rfl

end now

theorem battSample_mapInputs (hbatt : ∀ inp, (f inp).batt = inp.batt) : (s.mapInputs f).battSample = s.battSample :=
  congrArg clampLevel (hbatt s.inputs)

theorem tickBattery_mapInputs (hnow : ∀ inp, (f inp).now = inp.now) (hbatt : ∀ inp, (f inp).batt = inp.batt) :
    tickBattery (s.mapInputs f) = (tickBattery s).mapInputs f := by
  rw [tickBattery_eq, tickBattery_eq, elapsed_mapInputs s hnow, now_mapInputs s hnow, battSample_mapInputs s hbatt]
  rw [apply_ite (State.mapInputs f), apply_ite (State.mapInputs f)]
  rfl

theorem sample_mapInputs (hdata : ∀ inp, (f inp).data = inp.data) :
    (sample (s.mapInputs f)).2 = (sample s).2.mapInputs f := by
  have hlevels : (s.mapInputs f).inputs.data = s.inputs.data := hdata s.inputs
  rw [sample_eq, sample_eq, hlevels]
  rfl

theorem currentReport_mapInputs (hdata : ∀ inp, (f inp).data = inp.data) :
    (s.mapInputs f).currentReport = s.currentReport :=
  congrArg (fun data => reportOf s.params (~~~data)) (hdata s.inputs)

theorem reportDue_mapInputs_iff (hdata : ∀ inp, (f inp).data = inp.data) :
    (s.mapInputs f).ReportDue ↔ s.ReportDue := by
  rw [State.ReportDue, currentReport_mapInputs s hdata]
  rfl

end mapInputs

section otherDraws
variable {f : Inputs → Inputs} {s t : State} {i : Instr}

/-- TICK takes the same case under any inputs of the same time. -/
theorem TickResult.mapInputs (hnow : ∀ inp, (f inp).now = inp.now) (hbatt : ∀ inp, (f inp).batt = inp.batt)
    (h : TickResult s t) : TickResult (s.mapInputs f) (t.mapInputs f) := by
  have hchange : ∀ (e : Event) (c : ConnState) (b : Bool),
      tickBattery ((((s.mapInputs f).emit e).setState c).withLed b) =
        (tickBattery (((s.emit e).setState c).withLed b)).mapInputs f := fun e c b => by
    rw [emit_mapInputs, setState_mapInputs _ hnow, withLed_mapInputs, tickBattery_mapInputs _ hnow hbatt]
  cases h with
  | readvertise hst hreadv =>
    rw [← hchange, ← blink_mapInputs s hnow]
    exact .readvertise hst hreadv
  | powerOff hst hreadv hdue =>
    rw [← powerOff_mapInputs s hnow]
    exact .powerOff hst hreadv (hdue.trans_eq (elapsed_mapInputs s hnow _).symm)
  | advTimeout hst hdue =>
    rw [← hchange]
    exact .advTimeout hst (hdue.trans_eq (elapsed_mapInputs s hnow _).symm)
  | blink hst hnotDue =>
    rw [← tickBattery_mapInputs _ hnow hbatt, ← blink_mapInputs s hnow]
    exact .blink hst ((elapsed_mapInputs s hnow _).trans_le hnotDue)
  | batteryOnly hst hreadv hnotDue =>
    rw [← tickBattery_mapInputs _ hnow hbatt]
    exact .batteryOnly hst hreadv fun hidle => (elapsed_mapInputs s hnow _).trans_le (hnotDue hidle)

/-- A command completes alike under other draws of the collaborators it does not use. -/
theorem exec_mapInputs_of_next (hnow : ∀ inp, (f inp).now = inp.now)
    (hdata : i = .poll → ∀ inp, (f inp).data = inp.data)
    (hbatt : i = .tick ∨ i = .batt → ∀ inp, (f inp).batt = inp.batt) (h : exec i s = .next t) :
    exec i (s.mapInputs f) = .next (t.mapInputs f) := by
  cases i with
  | start | stop | advon | advoff | conn | disc =>
    obtain ⟨hrun, rfl⟩ := (exec_transition_next_iff (by decide)).mp h
    exact (exec_transition_next_iff (by decide)).mpr ⟨hrun, transition_mapInputs s hnow _⟩
  | poll =>
    have hrun := exec_running h
    refine exec_poll_next_iff_reportDue.mpr ⟨hrun, ?_⟩
    have hsame := reportDue_mapInputs_iff s (hdata rfl)
    obtain ⟨hdue, rfl⟩ | ⟨hdue, rfl⟩ := poll_next_cases h
    · rw [if_pos (hsame.mpr hdue), sample_mapInputs s (hdata rfl), currentReport_mapInputs s (hdata rfl),
        sendReport_mapInputs _ hnow]
    · rw [if_neg (hsame.not.mpr hdue), sample_mapInputs s (hdata rfl)]
  | tick =>
    have hrun := exec_running h
    exact exec_tick_of_tickResult hrun ((tickResult_of_exec h).mapInputs hnow (hbatt (.inl rfl)))
  | batt =>
    obtain ⟨hrun, rfl⟩ := exec_batt_next_iff.mp h
    refine exec_batt_next_iff.mpr ⟨hrun, ?_⟩
    rw [battSample_mapInputs s (hbatt (.inr rfl))]
    rw [apply_ite (State.mapInputs f)]
    rfl
  | sub sid =>
    obtain ⟨hrun, rfl⟩ := exec_sub_next_iff.mp h
    exact exec_sub_next_iff.mpr ⟨hrun, rfl⟩

/-- The outcome is that of the command under its own draws, the fault of a powered-off block included. -/
theorem exec_otherInputs_eq_mapNext (hnow : ∀ inp, (f inp).now = inp.now)
    (hdata : i = .poll → ∀ inp, (f inp).data = inp.data)
    (hbatt : i = .tick ∨ i = .batt → ∀ inp, (f inp).batt = inp.batt) :
    exec i { s with inputs := f s.inputs } = mapNext (fun t => { t with inputs := f s.inputs }) (exec i s) := by
  by_cases hh : s.halted = true
  · rw [exec_of_halted hh, exec_of_halted (s := { s with inputs := f s.inputs }) hh]
    rfl
  · obtain ⟨t, h⟩ := exists_exec_eq_next (Bool.eq_false_of_not_eq_true hh) i
    have hother := exec_mapInputs_of_next hnow hdata hbatt h
    rw [State.mapInputs, State.mapInputs, (exec_frame h).inputs_eq] at hother
    rw [h, hother]
    rfl

end otherDraws

/-! ### Each collaborator and its commands (R148, R150) -/

theorem eq_poll_of_mayEmit_digitalIO {i : Instr} {s t : State} {e : Event} (h : MayEmit i s t e)
    (he : collaboratorOf e = .digitalIO) : i = .poll := by
  cases e with
  | pinWrite | pinRead | delay => exact h
  | _ => cases he

theorem eq_tick_of_mayEmit_power {i : Instr} {s t : State} {e : Event} (h : MayEmit i s t e)
    (he : collaboratorOf e = .power) : i = .tick := by
  cases e with
  | powerOff => exact h
  | _ => cases he

/-- Settles O56: one draw replaced keeps the other and the time (`exec_otherInputs_eq_mapNext`), and `MayEmit` names the
commands of each event. -/
theorem collaboratorsUsedOnlyByTheirCommands : Obligations.CollaboratorsUsedOnlyByTheirCommands := by
  refine ⟨fun i s d b => ⟨fun hpoll => ?levels, fun htick hbatt => ?sample⟩, fun i s t e h he => ?events⟩
  case levels =>
    exact exec_otherInputs_eq_mapNext (f := fun inp => { inp with data := d }) (fun _ => rfl)
      (fun hi => absurd hi hpoll) fun _ _ => rfl
  case sample =>
    exact exec_otherInputs_eq_mapNext (f := fun inp => { inp with batt := b }) (fun _ => rfl) (fun _ _ => rfl)
      fun hi => (hi.elim htick hbatt).elim
  case events =>
    have hmay := mayEmit_of_mem_newEvents h he
    exact ⟨eq_poll_of_mayEmit_digitalIO hmay, eq_tick_of_mayEmit_power hmay⟩

end Sys2Proof.Machine
end

-- The family of spec/70_reset_and_hazards.md: the register values of reset, the wait for a command, and the launch
-- premise on time.
section

namespace Sys2Proof.Machine

/-! ### Reset and the wait for a command (R156, R158) -/

/-- Settles O14: the conjuncts are read off the fields of `State.reset`. -/
theorem resetValues : Obligations.ResetValues :=
  ⟨rfl, rfl, rfl, rfl, rfl, rfl, rfl, rfl, rfl, rfl, rfl, rfl, rfl, rfl, rfl, rfl⟩

/-- Settles O8: there is no command to fetch (`step_of_pending_nil`). -/
theorem stepWaitsWithoutCommand : Obligations.StepWaitsWithoutCommand :=
  fun _ => step_of_pending_nil

/-! ### Time does not go back (R166) -/

namespace MonotonicTime

variable {s t : State}

/-- The command taken moves from the head of the pending list to the inputs, so that one time drops off the front. -/
theorem accept {a : Arrival} {rest : List Arrival} (h : MonotonicTime s) (hpend : s.pending = a :: rest) :
    MonotonicTime (s.accept a rest) := by
  rw [MonotonicTime, hpend] at h
  exact h.of_cons

theorem illegalWord (h : MonotonicTime s) (w : CmdWord) : MonotonicTime (s.illegalWord w) := h

/-- The premise speaks of the inputs and the pending commands only, which no frame lets change. -/
theorem of_frame {rs : List RegName} (h : MonotonicTime s) (hframe : Frame rs s t) : MonotonicTime t := by
  rwa [MonotonicTime, hframe.inputs_eq, hframe.pending_eq]

end MonotonicTime

/-- Settles O15: waiting changes nothing, taking a command drops the oldest time, and neither a command (`exec_frame`) nor
the exception changes the inputs or the pending commands. -/
theorem stepKeepsMonotonicTime : Obligations.StepKeepsMonotonicTime := by
  intro s t hmono hstep
  obtain ⟨-, ⟨-, rfl⟩ | ⟨a, rest, hpend, ⟨i, -, hexec⟩ | ⟨r, -, rfl⟩⟩⟩ := step_next_cases hstep
  · exact hmono
  · exact (hmono.accept hpend).of_frame (exec_frame hexec)
  · exact (hmono.accept hpend).illegalWord a.word

end Sys2Proof.Machine
end
